-- ==== Sys2Proof/Word.lean ====
section
/-! DEFINITION. The word types of the block: a byte of the wire and of the buffers (spec 00_scope.md R10), the
16-bit address and checksum (30_encoding.md R78), and the TIME_W = 32 bit time of 00_scope.md R7. -/

namespace Sys2Proof

/-- A byte: 8 bits, unsigned (00_scope.md R10). -/
abbrev Byte := BitVec 8

/-- A 16-bit value: an address, a checksum, a CRC accumulator (40_crc_engine.md R105). -/
abbrev Half := BitVec 16

/-- A duration in units of TICK, TIME_W = 32 bits (00_scope.md R7, 10_state.md R26). -/
abbrev Time := BitVec 32

end Sys2Proof
end

