-- ==== Sys2Proof/Config.lean ====
section
/-! DEFINITION. What an implementation fixes: the constants of spec 00_scope.md R8, the open parameters of R7, and
the free values that stand for everything the spec calls unspecified (10_state.md R37, R28; 93 U3, U8). A free value
is an opaque constant applied to a draw number: no proof can see which value it is. -/

namespace Sys2Proof.Config

/-- `MARKER` of R8: "the reserved value 0x98 that introduces a two-byte control sequence" (30_encoding.md R70). -/
def marker : Byte := 0x98

/-- `POLY` of R8 (the reflected constant; R3 forbids the CCITT one). -/
def poly : Half := 0xA001

/-- `CRC_INIT` of R8. -/
def crcInit : Half := 0xFFFF

/-- Control code of `ESC`, the escaped marker (R8, 30_encoding.md R72). -/
def codeEscape : Byte := 0x00

/-- Control code of `SOF`, start of frame on the encoder's side (R8, R72). -/
def codeStart : Byte := 0x01

/-- Control code of `EOF`, end of frame on the encoder's side (R8, R72). -/
def codeEnd : Byte := 0x02

/-- Control code of `RST`, abort and restart (R8, R72). -/
def codeRestart : Byte := 0x03

/-- Control code of `EOR`, the frame-complete trigger (R8, R72). -/
def codeComplete : Byte := 0x04

/-- GUID length, 16 bytes (R8). -/
def guidLength : Nat := 16

/-- Device-info minimum payload, 54 bytes (R8). -/
def infoLength : Nat := 54

/-- Device-info retries, 5 (R8). -/
def infoRetries : Nat := 5

/-- "more than 4 bytes": the length a buffer must exceed for a frame to complete (R8). -/
def completionFloor : Nat := 4

/-- How far the reset machine's CAP lies above the least value R7 allows. Nothing says how far (log 1). -/
opaque capExtra : Nat

/-- CAP of the machine `State.reset`: OPEN in R7, `CAP >= 5` (DESIGN CHOICE, log 1). -/
def cap : Nat := capExtra + 5

/-- How far the reset machine's MAX_DLEN lies above 18, the longest data of the document's own requests (92 D4, log 1). -/
opaque maxDlenExtra : Nat

/-- MAX_DLEN of the machine `State.reset`: OPEN in R7 (DESIGN CHOICE, log 1). -/
def maxDlen : Nat := maxDlenExtra + 18

/-- DEFAULT_TIMEOUT of R7, read by no rule of the block; the host's (60_exceptions.md R216). R7 asks only for a natural;
that it fits the 32 bits of `arg_timeout` is the model's choice (DESIGN CHOICE, log 23). -/
opaque defaultTimeout : Time

/-- Which of the admissible triples of reserved commands this system uses (R7, 91 N8). -/
opaque commandChoice : Nat

/-- The triples of pairwise distinct commands of at least 250 (R7, 30_encoding.md R79). -/
def commandTriples : List (Byte × Byte × Byte) :=
  let pool : List Byte := [250, 251, 252, 253, 254, 255]
  pool.flatMap fun a => (pool.filter (· ≠ a)).flatMap fun b =>
    (pool.filter fun c => c ≠ a && c ≠ b).map fun c => (a, b, c)

/-- The three reserved commands: some admissible triple, which one is OPEN (R7, 92 D17). -/
def commands : Byte × Byte × Byte :=
  commandTriples.getD (commandChoice % 120) (250, 251, 252)

/-- CMD_DISCOVER of R7. -/
def cmdDiscover : Byte := commands.1

/-- CMD_INFO of R7. -/
def cmdInfo : Byte := commands.2.1

/-- CMD_ASSIGN of R7. -/
def cmdAssign : Byte := commands.2.2

/-- Free value of ECRC after a reset (10_state.md R37; log 2, log 3). -/
opaque freeEcrc : Nat → Half

/-- Free value of REQ_ADDR after a reset (R37; log 2, log 3). -/
opaque freeReqAddr : Nat → Half

/-- Free value of REQ_CMD after a reset (R37; log 2, log 3). -/
opaque freeReqCmd : Nat → Byte

/-- Free value behind REQ_DLEN after a reset; its range is kept where it is used (R37, R20; log 2, log 3). -/
opaque freeReqDlen : Nat → Nat

/-- Free value of TMO after a reset (R37; log 2, log 3). -/
opaque freeTmo : Nat → Time

/-- Free 3-bit code behind RSP_STATE after a reset (R37; log 2, log 3). -/
opaque freeRspCode : Nat → BitVec 3

/-- Free value of RSP_ADDR after a reset or a pass without success (R37, R28; log 2, log 4). -/
opaque freeRspAddr : Nat → Half

/-- Free value of RSP_RESULT after a reset or a pass without success (R37, R28; log 2, log 4). -/
opaque freeRspResult : Nat → Byte

/-- Free value behind RSP_DLEN after a reset or a pass without success; its range is kept where it is used
(R37, R28, R20; log 2, log 4). -/
opaque freeRspDlen : Nat → Nat

/-- Free value of each byte of BUF after a reset: draw, then index (R37, 93 U8; log 2, log 3). -/
opaque freeBuf : Nat → Nat → Byte

end Sys2Proof.Config
end

