-- ==== Sys2Proof/Syntax.lean ====
section
/-! DEFINITION. The instructions: one constructor for each row of spec/opcode_table.json. The wire symbols are the
decoder's instructions (spec 30_encoding.md R70 to R72, R85); the host operations are selected by `op[3:0]`
(R82). Beside them, what reaches the block: the input ports of a step (10_state.md R34) and the bytes of a symbol. -/

namespace Sys2Proof

/-- The decoder's two modes, "an explicit tagged state" (10_state.md R24): which reading the next byte gets. -/
inductive Mode where
  | normal
  | afterMarker
  deriving DecidableEq, Repr

/-- The read outcome `arg_rd` of a `DEC.STEP` (30_encoding.md R84): 0 NONE, 1 BYTE, 2 ERR, 3 reserved. -/
inductive ReadOutcome where
  | none
  | byte
  | err
  | reserved
  deriving DecidableEq, Repr

/-- The instructions. -/
inductive Instr where
  /-- `98 00`: the data byte 0x98 (42_frame_decoder.md R148). -/
  | esc
  /-- `98 01`: ignored by the decoder (R154). -/
  | sof
  /-- `98 02`: ignored by the decoder (R154). -/
  | eof
  /-- `98 03`: abort, empty the buffer (R149). -/
  | rst
  /-- `98 04`: the frame-complete trigger (R150 to R152). -/
  | eor
  /-- `98 98`: the data byte 0x98 (R153). -/
  | mm
  /-- `98 cc`, any other code: ignored (R154). -/
  | ign (cc : Byte)
  /-- The marker 0x98 read in NORMAL mode (R147). -/
  | mrk
  /-- An ordinary byte read in NORMAL mode (R146). -/
  | data (b : Byte)
  /-- op 0x0 (30_encoding.md R84). -/
  | nop
  /-- op 0x1 (40_crc_engine.md R102). -/
  | crcInit
  /-- op 0x2, `arg_byte` (R103). -/
  | crcUpdate (b : Byte)
  /-- op 0x3 (R104). -/
  | crcRead
  /-- op 0x4, `arg_index`, `arg_byte` (41_frame_encoder.md R122). -/
  | encLoad (index : Nat) (b : Byte)
  /-- op 0x5, `arg_addr`, `arg_cmd`, `arg_dlen` (R123). -/
  | encStart (addr : Half) (cmd : Byte) (dlen : Nat)
  /-- op 0x6 (R124). -/
  | encStep
  /-- op 0x7, `arg_timeout` (42_frame_decoder.md R141). -/
  | decStart (timeout : Time)
  /-- op 0x8, `arg_elapsed`, `arg_rd`, `arg_byte` (R142). -/
  | decStep (elapsed : Time) (rd : ReadOutcome) (b : Byte)
  /-- op 0x9 (43_validator.md R181). -/
  | valGuid
  /-- op 0xA (R183). -/
  | valInfo
  /-- op 0xB (R186). -/
  | valAck
  /-- op 0xC, reserved (30_encoding.md R83). -/
  | reservedC
  /-- op 0xD, reserved (R83). -/
  | reservedD
  /-- op 0xE, reserved (R83). -/
  | reservedE
  /-- op 0xF (70_reset_and_hazards.md R230). -/
  | reset
  deriving DecidableEq, Repr

/-- The input ports of one step (10_state.md R34). "Operands an operation does not name are ignored" (30_encoding.md
R84). `arg_dlen` and `arg_index` are naturals; a value above MAX_DLEN is refused by the operation (log 18). -/
structure Ports where
  op : BitVec 4
  argByte : Byte := 0
  argAddr : Half := 0
  argCmd : Byte := 0
  argDlen : Nat := 0
  argIndex : Nat := 0
  argTimeout : Time := 0
  argElapsed : Time := 0
  argRd : BitVec 2 := 0
  deriving DecidableEq, Repr

/-- The encoded form of an instruction: the bytes of a wire symbol, first byte on the wire first (formats `B1` and
`C2`, 30_encoding.md R70, R71), or the ports of a host operation (format `OP`, R82). -/
inductive Encoded where
  | wire (bytes : List Byte)
  | host (ports : Ports)
  deriving DecidableEq, Repr

/-- Why a row of bytes is no wire symbol. -/
inductive DecodeError where
  /-- No byte at all. -/
  | empty
  /-- Two bytes of which the first is not the marker: no `C2` pattern (R71). -/
  | noMarker
  /-- More bytes than the longest symbol has (R70). -/
  | tooLong
  deriving DecidableEq, Repr

end Sys2Proof
end

