-- ==== Sys2Proof/Machine/State.lean ====
section
/-! DEFINITION. The state of the block: the complete list of spec 10_state.md R20, and beside it the model's own fields
(the parameters of 00_scope.md R7, the environment's input ports still to come, the output ports of the last step, the
counter of free values). The reasons a step can stop. The machine right after reset (10_state.md R37). -/

namespace Sys2Proof.Machine

/-- A byte memory: (index, byte) cells with strictly rising indexes. An index that is not listed has no value. In REQ_DATA
that is a byte nothing has loaded since the reset (log 5); in BUF it is an index the array does not have, since every byte
of BUF holds a value from reset on (log 2). -/
abbrev Memory := List Host.Cell

/-- The `n` bytes from index `start` on, each the free value of its index in a draw: BUF after a reset, "any value"
(10_state.md R37, 93 U8; log 2, log 3). -/
def Memory.drawn (draw start n : Nat) : Memory :=
  match n with
  | 0 => []
  | k + 1 => (start, Config.freeBuf draw start) :: Memory.drawn draw (start + 1) k

/-- ResponseState: "a closed enumeration of eight values" (60_exceptions.md R200, R201), in the order of their codes. -/
inductive ResponseState where
  | success
  | timeout
  | formatError
  | checksumError
  | unexpectedPacketType
  | unsolicitedResponse
  /-- "transport error" of the data model, "port-error" of the decoder (R200, 90_conflicts.md C4). -/
  | transportError
  | networkError
  deriving DecidableEq, Repr

/-- The ResponseState of a 3-bit code (60_exceptions.md R200). -/
def ResponseState.ofCode (c : BitVec 3) : ResponseState :=
  match c.toNat with
  | 0 => .success
  | 1 => .timeout
  | 2 => .formatError
  | 3 => .checksumError
  | 4 => .unexpectedPacketType
  | 5 => .unsolicitedResponse
  | 6 => .transportError
  | _ => .networkError

/-- The validator's verdict (43_validator.md R187); the codes 5 to 7 are not produced. -/
inductive Verdict where
  | accept
  | dropChecksum
  | dropLength
  | dropResult
  | dropState
  deriving DecidableEq, Repr

/-- The open parameters on which the sizes of the state depend (00_scope.md R7, log 1). -/
structure Params where
  /-- CAP, the capacity of the accumulation buffer; R7 requires at least 5. -/
  cap : Nat
  /-- MAX_DLEN, the largest request data length. -/
  maxDlen : Nat
  deriving DecidableEq, Repr

/-- The byte an `ENC.STEP` emits: `tx_byte` and `tx_last` with `tx_valid = 1` (41_frame_encoder.md R124). -/
structure TxByte where
  byte : Byte
  last : Bool
  deriving DecidableEq, Repr

/-- The output ports as the last step drove them (10_state.md R34, 43_validator.md R187). `none` is a port the step did
not drive: `tx_valid = 0` for `tx`, no value stated by the spec for the others (log 8). -/
structure Outputs where
  tx : Option TxByte := none
  acc : Option Half := none
  verdict : Option Verdict := none
  collision : Option Bool := none
  guid : Option (BitVec 128) := none
  nameRaw : Option (List Byte) := none
  dateRaw : Option (List Byte) := none
  deriving DecidableEq, Repr

/-- The outputs of a step that drives none. -/
def Outputs.idle : Outputs := {}

/-- The state of the block. -/
structure State where
  /-- CAP and MAX_DLEN (the model's own field; 00_scope.md R7, log 1). -/
  params : Params
  /-- ACC, the host-visible CRC accumulator (10_state.md R21). -/
  acc : Half
  /-- REQ_ADDR (R22). -/
  reqAddr : Half
  /-- REQ_CMD (R22). -/
  reqCmd : Byte
  /-- REQ_DLEN (R22). -/
  reqDlen : Nat
  /-- REQ_DATA, the request data memory (R22, 20_memory.md R50). -/
  reqData : Memory
  /-- ENC_BUSY (R23, R30). -/
  encBusy : Bool
  /-- ENC_POS, how many bytes of the encoded stream have been emitted (R23). -/
  encPos : Nat
  /-- ECRC, the checksum of the latched request (R23). -/
  ecrc : Half
  /-- DEC_ACTIVE (R26, R30). -/
  decActive : Bool
  /-- MODE (R24). -/
  mode : Mode
  /-- BUF, the accumulation buffer (R25, 20_memory.md R50). -/
  buf : Memory
  /-- LEN, the number of valid bytes of BUF (R25). -/
  len : Nat
  /-- TMO, the timeout of the current pass (R26). -/
  tmo : Time
  /-- OVF, sticky (R29). -/
  ovf : Bool
  /-- RSP_VALID (R28, R30). -/
  rspValid : Bool
  /-- RSP_STATE (R28, 60_exceptions.md R200). -/
  rspState : ResponseState
  /-- RSP_ADDR, FromAddress (R28). -/
  rspAddr : Half
  /-- RSP_RESULT (R28). -/
  rspResult : Byte
  /-- RSP_DLEN, the length of Data (R28). -/
  rspDlen : Nat
  /-- The output ports of the last step (the model's own field; R34, log 8). -/
  out : Outputs
  /-- The input ports of the steps to come, the next step first (the model's own field; R34, R35, log 7). -/
  input : List Ports
  /-- The number of the next free value (the model's own field, log 3). -/
  draws : Nat
  deriving DecidableEq, Repr

/-- Why a step stops with a fault. All are safe: the machine stops where the hardware's value is unspecified. -/
inductive Fault where
  /-- `ENC.START` whose data length covers a REQ_DATA byte nothing has loaded since the reset: "a model should make a
  read of an unwritten REQ_DATA byte a fault, not a zero" (70_reset_and_hazards.md R231, 41_frame_encoder.md R122).
  `ENC.STEP` and the encoder raise it too, in states no run reaches. Safe (log 5). -/
  | unwrittenReqData
  /-- A read of BUF at an index the array does not have: LEN or RSP_DLEN beyond the CAP bytes. No run from reset reaches
  such a state (10_state.md R25, R28). Raised by `EOR`, `DEC.STEP`, `VAL.GUID`, `VAL.INFO`. Safe (log 13). -/
  | bufOutOfRange
  /-- `ENC_BUSY = 1` with ENC_POS past the encoded stream. No run from reset reaches such a state (R23). Raised by
  `ENC.STEP`. Safe (log 13). -/
  | encPosPastEnd
  deriving DecidableEq, Repr

/-- Why a step is refused: the operation "is not accepted and changes no state", the output `refused` is 1 for the step,
and "a model should give a refused operation no meaning" (30_encoding.md R83; log 6). All are safe. -/
inductive Refusal where
  /-- An instruction that has no meaning in this model yet. No arm of `exec` answers with it. Safe. -/
  | notModelled (mnemonic : String)
  /-- The reserved operation codes 0xC, 0xD and 0xE (R83, 93 U6). Safe. -/
  | reservedOp
  /-- `DEC.STEP` with `arg_rd = 3` (R83, 93 U6). Safe. -/
  | reservedRead
  /-- `ENC.LOAD` or `ENC.START` while ENC_BUSY = 1 (41_frame_encoder.md R122, R123). Safe. -/
  | encBusy
  /-- `ENC.STEP` while ENC_BUSY = 0 (R124). Safe. -/
  | encIdle
  /-- `ENC.LOAD` with `arg_index >= MAX_DLEN` (R122). Safe. -/
  | indexOutOfRange
  /-- `ENC.START` with `arg_dlen > MAX_DLEN` (R123). Safe. -/
  | dataTooLong
  /-- `DEC.START` while DEC_ACTIVE = 1 (42_frame_decoder.md R141). Safe. -/
  | passActive
  /-- `DEC.STEP`, or a wire symbol, while DEC_ACTIVE = 0 (R142). Safe. -/
  | noPass
  /-- `VAL.*` while RSP_VALID = 0 (43_validator.md R180). Safe. -/
  | noResponse
  deriving DecidableEq, Repr

/-- The machine right after reset: every element at the value of 10_state.md R37, the ones R37 calls unspecified at the
free values of draw 0 (log 2), the parameters at the open constants of `Config` (log 1), no operation presented. -/
def State.reset : State where
  params := { cap := Config.cap, maxDlen := Config.maxDlen }
  acc := Config.crcInit
  reqAddr := Config.freeReqAddr 0
  reqCmd := Config.freeReqCmd 0
  reqDlen := Config.freeReqDlen 0 % (Config.maxDlen + 1)
  reqData := []
  encBusy := false
  encPos := 0
  ecrc := Config.freeEcrc 0
  decActive := false
  mode := .normal
  buf := Memory.drawn 0 0 Config.cap
  len := 0
  tmo := Config.freeTmo 0
  ovf := false
  rspValid := false
  rspState := ResponseState.ofCode (Config.freeRspCode 0)
  rspAddr := Config.freeRspAddr 0
  rspResult := Config.freeRspResult 0
  rspDlen := Config.freeRspDlen 0 % (Config.cap - 4)
  out := Outputs.idle
  input := []
  draws := 1

end Sys2Proof.Machine
end

