-- ==== Sys2Proof/Machine/Operands.lean ====
section
/-! DEFINITION. The operand forms: big-endian assembly of multi-byte values (spec 30_encoding.md R78, 20_memory.md
R52), the high and low byte of a 16-bit value, byte-stuffing (R76), the payload of a frame (R74), the layout of the
buffer (20_memory.md R54, R55), and the numbers of the validator's verdicts and of ResponseState. -/

namespace Sys2Proof.Machine

/-- `hi(v) = v[15:8]` (00_scope.md R10). -/
def hi (v : Half) : Byte := v.extractLsb' 8 8

/-- `lo(v) = v[7:0]` (00_scope.md R10). -/
def lo (v : Half) : Byte := v.extractLsb' 0 8

/-- Big-endian assembly of a sequence of bytes into `w` bits, the first byte the most significant (30_encoding.md R78):
the address, the checksum, and the GUID with `Data[0]` in bits 127:120. -/
def bigEndian (w : Nat) (bytes : List Byte) : BitVec w :=
  bytes.foldl (fun v b => (v <<< 8) ||| b.setWidth w) 0

/-- A 16-bit value as its two wire bytes, "high, then low" (30_encoding.md R78). -/
def halfBytes (v : Half) : List Byte := [hi v, lo v]

/-- A 32-bit value as its four bytes, most significant first: the discovery seed (30_encoding.md R78). -/
def wordBytes (v : BitVec 32) : List Byte :=
  [v.extractLsb' 24 8, v.extractLsb' 16 8, v.extractLsb' 8 8, v.extractLsb' 0 8]

/-- The `n` bytes of a sequence from offset `start` on. -/
def slice (bytes : List Byte) (start n : Nat) : List Byte := (bytes.drop start).take n

/-- `stuff(b)`: the marker is followed by 0x00, every other byte stands for itself (41_frame_encoder.md R120). -/
def stuff (b : Byte) : List Byte :=
  if b = Config.marker then [Config.marker, Config.codeEscape] else [b]

/-- `stuff*(bs)`, the concatenation of `stuff` over a sequence (41_frame_encoder.md R120). -/
def stuffAll (bytes : List Byte) : List Byte := bytes.flatMap stuff

/-- The bytes a checksum covers: address, command or result, data (30_encoding.md R74). -/
def payload (addr : Half) (cmd : Byte) (data : List Byte) : List Byte :=
  [hi addr, lo addr, cmd] ++ data

/-- The fields of a completed buffer (20_memory.md R54, 42_frame_decoder.md R150). -/
structure FrameFields where
  fromAddress : Half
  result : Byte
  received : Half
  covered : List Byte
  deriving DecidableEq, Repr

/-- The layout of the buffer at a trigger, for the bytes `BUF[0 .. L-1]` with `L > 4` (20_memory.md R54): FromAddress at
0 and 1, Result at 2, the received checksum at L-2 and L-1; the checksum covers 0 .. L-3. -/
def frameFields (bytes : List Byte) : FrameFields where
  fromAddress := bigEndian 16 (slice bytes 0 2)
  result := bigEndian 8 (slice bytes 2 1)
  received := bigEndian 16 (slice bytes (bytes.length - 2) 2)
  covered := slice bytes 0 (bytes.length - 2)

/-- `code(state)` of 60_exceptions.md R200. -/
def ResponseState.code (st : ResponseState) : BitVec 3 :=
  match st with
  | .success => 0
  | .timeout => 1
  | .formatError => 2
  | .checksumError => 3
  | .unexpectedPacketType => 4
  | .unsolicitedResponse => 5
  | .transportError => 6
  | .networkError => 7

/-- `verdict[2:0]` of 43_validator.md R187. -/
def Verdict.code (v : Verdict) : BitVec 3 :=
  match v with
  | .accept => 0
  | .dropChecksum => 1
  | .dropLength => 2
  | .dropResult => 3
  | .dropState => 4

/-- The number of a mode: NORMAL = 0, AFTER_MARKER = 1 (10_state.md R24). -/
def modeBit (m : Mode) : Bool :=
  match m with
  | .normal => false
  | .afterMarker => true

end Sys2Proof.Machine
end

