-- ==== Sys2Proof/Machine/Flags.lean ====
section
/-! DEFINITION. The flags and the tests that set them (spec 10_state.md R29, R30), and the read-only status view STATUS
(R33). There are no arithmetic condition codes (R30). -/

namespace Sys2Proof.Machine

/-- The overflow condition of `BufAppend`: "the buffer already holds CAP bytes when a byte is to be appended"
(20_memory.md R56). -/
def bufFull (s : State) : Bool := s.len == s.params.cap

/-- The deadline test `arg_elapsed > TMO`, unsigned (42_frame_decoder.md R143). -/
def deadlinePassed (elapsed : Time) (s : State) : Bool := decide (s.tmo.toNat < elapsed.toNat)

/-- `STATUS` (10_state.md R33): bit 0 ENC_BUSY, bit 1 DEC_ACTIVE, bit 2 RSP_VALID, bit 3 MODE, bit 4 OVF, bits 7:5
RSP_STATE. -/
def status (s : State) : BitVec 8 :=
  s.rspState.code ++ BitVec.ofBool s.ovf ++ BitVec.ofBool (modeBit s.mode) ++ BitVec.ofBool s.rspValid
    ++ BitVec.ofBool s.decActive ++ BitVec.ofBool s.encBusy

end Sys2Proof.Machine
end

