-- ==== Sys2Proof/Machine/Ops.lean ====
section
/-! DEFINITION. The named operations over memory and registers that the meanings share: the byte memories (spec
20_memory.md R50, R51), `BufAppend` (R56), the `RSP_DATA` view (10_state.md R28), ending a pass (`finish`, the analogue
of taking an exception, 60_exceptions.md R206) with the return from it (`armPass`, the next `DEC.START`, R210,
42_frame_decoder.md R141), and the reset of the block (70_reset_and_hazards.md R230). -/

namespace Sys2Proof.Machine

/-- What a meaning answers. -/
abbrev Answer := Host.Outcome State Fault Refusal

/-- The byte at an index; `none` where the memory has none (log 5). -/
def Memory.read (m : Memory) (i : Nat) : Option Byte :=
  match m with
  | [] => none
  | c :: rest => if c.1 = i then some c.2 else Memory.read rest i

/-- The memory with one byte written, its indexes still rising. -/
def Memory.write (m : Memory) (i : Nat) (b : Byte) : Memory :=
  match m with
  | [] => [(i, b)]
  | c :: rest =>
    if i < c.1 then (i, b) :: c :: rest
    else if i = c.1 then (i, b) :: rest
    else c :: Memory.write rest i b

/-- The canonical form: indexes strictly rising. Nothing listed equals what an unlisted index reads as, since an unlisted
index has no value. -/
abbrev Memory.wf (m : Memory) : Prop := m.Pairwise fun c d => c.1 < d.1

/-- The `n` bytes from index `start` on, if the memory has every one of them. -/
def Memory.readRange (m : Memory) (start n : Nat) : Option (List Byte) :=
  match n with
  | 0 => some []
  | k + 1 =>
    match m.read start, Memory.readRange m (start + 1) k with
    | some b, some bs => some (b :: bs)
    | _, _ => none

/-- `BufAppend(b)` (20_memory.md R56): an append to a full buffer first empties it and sets OVF. -/
def bufAppend (b : Byte) (s : State) : State :=
  let len0 := if bufFull s then 0 else s.len
  { s with buf := s.buf.write len0 b, len := len0 + 1, ovf := s.ovf || bufFull s }

/-- `MODE <- m`. -/
def setMode (m : Mode) (s : State) : State := { s with mode := m }

/-- `RSP_DATA[i] = BUF[3 + i]` for `0 <= i < RSP_DLEN` (10_state.md R28): the host's read of the response data. R28 defines
the view for these indexes only; that it shows no value at `i >= RSP_DLEN` is the model's choice (DESIGN CHOICE, log 22). -/
def rspData (s : State) (i : Nat) : Option Byte := if i < s.rspDlen then s.buf.read (3 + i) else none

/-- `finish(state)` (60_exceptions.md R206): the pass ends. On success the response fields keep what the same step
latched; on any other state they "become unspecified": free values, RSP_DLEN within its range (log 4). -/
def finish (st : ResponseState) (s : State) : State :=
  { s with
    rspState := st
    rspValid := true
    decActive := false
    rspAddr := if st = .success then s.rspAddr else Config.freeRspAddr s.draws
    rspResult := if st = .success then s.rspResult else Config.freeRspResult s.draws
    rspDlen := if st = .success then s.rspDlen else Config.freeRspDlen s.draws % (s.params.cap - 4)
    draws := if st = .success then s.draws else s.draws + 1 }

/-- The response fields of a successful completion (42_frame_decoder.md R150): RSP_DLEN is `L - 5`. -/
def latchResponse (f : FrameFields) (s : State) : State :=
  { s with rspAddr := f.fromAddress, rspResult := f.result, rspDlen := s.len - 5 }

/-- A new pass begins (42_frame_decoder.md R141): nothing is carried over from the last one. -/
def armPass (timeout : Time) (s : State) : State :=
  { s with mode := .normal, len := 0, ovf := false, tmo := timeout, rspValid := false, decActive := true }

/-- The block goes to the values of 10_state.md R37 (70_reset_and_hazards.md R230). Every element R37 calls unspecified
is a free value of a fresh draw, each byte of BUF too; REQ_DATA loses its contents (log 3, log 5). -/
def resetBlock (s : State) : State :=
  { s with
    acc := Config.crcInit
    reqAddr := Config.freeReqAddr s.draws
    reqCmd := Config.freeReqCmd s.draws
    reqDlen := Config.freeReqDlen s.draws % (s.params.maxDlen + 1)
    reqData := []
    encBusy := false
    encPos := 0
    ecrc := Config.freeEcrc s.draws
    decActive := false
    mode := .normal
    buf := Memory.drawn s.draws 0 s.params.cap
    len := 0
    tmo := Config.freeTmo s.draws
    ovf := false
    rspValid := false
    rspState := ResponseState.ofCode (Config.freeRspCode s.draws)
    rspAddr := Config.freeRspAddr s.draws
    rspResult := Config.freeRspResult s.draws
    rspDlen := Config.freeRspDlen s.draws % (s.params.cap - 4)
    draws := s.draws + 1 }

/-- What a wire symbol does, it does in an active pass; outside one the byte is not accepted (42_frame_decoder.md R142:
`DEC_ACTIVE = 0` refuses; log 11). -/
def inPass (k : State → Answer) (s : State) : Answer :=
  if s.decActive then k s else .refused .noPass

/-- The `VAL.*` operations judge a finished pass (43_validator.md R180). -/
def withResponse (k : State → Answer) (s : State) : Answer :=
  if s.rspValid then k s else .refused .noResponse

/-- The step drives these output ports (10_state.md R34). -/
def drivePorts (o : Outputs) (s : State) : State := { s with out := o }

end Sys2Proof.Machine
end

