-- ==== Sys2Proof/Machine/Control.lean ====
section
/-! DEFINITION. `NOP` (spec 30_encoding.md R84), the three reserved operation codes (R83) and `RESET`
(70_reset_and_hazards.md R230). -/

namespace Sys2Proof.Machine

/-- `NOP` (R84): no state change, no output, never refused. -/
def execNop (s : State) : Answer := .next s

/-- A reserved operation code is refused (R83, 93 U6). -/
def refuseReserved (_s : State) : Answer := .refused .reservedOp

/-- op 0xC (R83). -/
def execReservedC (s : State) : Answer := refuseReserved s

/-- op 0xD (R83). -/
def execReservedD (s : State) : Answer := refuseReserved s

/-- op 0xE (R83). -/
def execReservedE (s : State) : Answer := refuseReserved s

/-- `RESET` (R230): never refused. -/
def execReset (s : State) : Answer := .next (resetBlock s)

end Sys2Proof.Machine
end

