-- ==== Sys2Proof/Machine/Crc.lean ====
section
/-! DEFINITION. The CRC engine (spec 40_crc_engine.md): `crc_update`, `crc_compute`, and the operations on the
host-visible accumulator ACC. -/

namespace Sys2Proof.Machine

/-- One of the eight rounds of R100: shift right by one, XOR 0xA001 where bit 0 was 1. -/
def crcRound (t : Half) : Half := if t.getLsbD 0 then (t >>> 1) ^^^ Config.poly else t >>> 1

/-- `n` rounds. -/
def crcRounds (n : Nat) (t : Half) : Half :=
  match n with
  | 0 => t
  | k + 1 => crcRounds k (crcRound t)

/-- `crc_update(s, b)` (R100): one XOR of the byte into the low half, then eight rounds. -/
def crcUpdate (s : Half) (b : Byte) : Half := crcRounds 8 (s ^^^ b.setWidth 16)

/-- `crc_compute(bytes)` (R101): a fold from 0xFFFF, no final step. -/
def crcCompute (bytes : List Byte) : Half := bytes.foldl crcUpdate Config.crcInit

/-- `CRC.INIT` (R102). -/
def execCrcInit (s : State) : Answer := .next { s with acc := Config.crcInit }

/-- `CRC.UPDATE` (R103). -/
def execCrcUpdate (b : Byte) (s : State) : Answer := .next { s with acc := crcUpdate s.acc b }

/-- `CRC.READ` (R104): the output `acc` carries ACC, which is unchanged. -/
def execCrcRead (s : State) : Answer := .next (drivePorts { acc := some s.acc } s)

end Sys2Proof.Machine
end

