-- ==== Sys2Proof/Machine/WireSymbols.lean ====
section
/-! DEFINITION. The wire symbols (spec 42_frame_decoder.md R146 to R154): what the decoder does when the byte that
completes the symbol has been read. -/

namespace Sys2Proof.Machine

/-- The trigger `98 04` (R150 to R152). With at most 4 buffered bytes it is ignored. Otherwise the received checksum is
compared with the one computed over all bytes but the last two, and the pass ends. -/
def completeFrame (s : State) : Answer :=
  if s.len ≤ Config.completionFloor then .next (setMode .normal s)
  else
    match s.buf.readRange 0 s.len with
    | none => .fault .bufOutOfRange
    | some bytes =>
      let f := frameFields bytes
      if f.received = crcCompute f.covered then
        .next (finish .success (latchResponse f (setMode .normal s)))
      else .next (finish .checksumError (setMode .normal s))

/-- The two bytes that stand for a data byte 0x98 have been read: `BufAppend(0x98)`, back to NORMAL (R148, R153). -/
def appendMarker (s : State) : Answer := .next (setMode .normal (bufAppend Config.marker s))

/-- A code without effect on the buffer has been read: back to NORMAL (R154). -/
def ignoreCode (s : State) : Answer := .next (setMode .normal s)

/-- `ESC` (R148). -/
def execEsc (s : State) : Answer := inPass appendMarker s

/-- `SOF` (R154): the decoder gives it no meaning. -/
def execSof (s : State) : Answer := inPass ignoreCode s

/-- `EOF` (R154): the decoder gives it no meaning; it does not complete a frame (30_encoding.md R81). -/
def execEof (s : State) : Answer := inPass ignoreCode s

/-- `RST` (R149): the buffer is emptied, OVF stays. -/
def execRst (s : State) : Answer := inPass (fun t => .next (setMode .normal { t with len := 0 })) s

/-- `EOR` (R150 to R152). -/
def execEor (s : State) : Answer := inPass completeFrame s

/-- `MM` (R153, 90_conflicts.md C2): the mode after it is NORMAL. -/
def execMm (s : State) : Answer := inPass appendMarker s

/-- `IGN cc` (R154). -/
def execIgn (_cc : Byte) (s : State) : Answer := inPass ignoreCode s

/-- `MRK` (R147): the marker is swallowed, the next byte is a control code. -/
def execMrk (s : State) : Answer := inPass (fun t => .next (setMode .afterMarker t)) s

/-- `DATA b` (R146): appended verbatim, the mode unchanged. -/
def execData (b : Byte) (s : State) : Answer := inPass (fun t => .next (bufAppend b t)) s

end Sys2Proof.Machine
end

