-- ==== Sys2Proof/Machine/Decoder.lean ====
section
/-! DEFINITION. The frame decoder's two host operations (spec 42_frame_decoder.md R141 to R145) and the choice of the
wire symbol by MODE and byte (R155). -/

namespace Sys2Proof.Machine

/-- `process(b)` (R146 to R155): which symbol a byte is depends on MODE. -/
def process (b : Byte) (s : State) : Answer :=
  match s.mode with
  | .normal => if b = Config.marker then execMrk s else execData b s
  | .afterMarker =>
    if b = Config.codeEscape then execEsc s
    else if b = Config.codeStart then execSof s
    else if b = Config.codeEnd then execEof s
    else if b = Config.codeRestart then execRst s
    else if b = Config.codeComplete then execEor s
    else if b = Config.marker then execMm s
    else execIgn b s

/-- `DEC.START` (R141). -/
def execDecStart (timeout : Time) (s : State) : Answer :=
  if s.decActive then .refused .passActive else .next (armPass timeout s)

/-- `DEC.STEP` (R142): the deadline first (R143), then the transport's failure (R144), then no byte (R145), then the byte.
`arg_rd = 3` is refused whatever the deadline (30_encoding.md R83). -/
def execDecStep (elapsed : Time) (rd : ReadOutcome) (b : Byte) (s : State) : Answer :=
  if s.decActive then
    match rd with
    | .reserved => .refused .reservedRead
    | .none => if deadlinePassed elapsed s then .next (finish .timeout s) else .next s
    | .byte => if deadlinePassed elapsed s then .next (finish .timeout s) else process b s
    | .err => if deadlinePassed elapsed s then .next (finish .timeout s) else .next (finish .transportError s)
  else .refused .noPass

end Sys2Proof.Machine
end

