-- ==== Sys2Proof/Machine/Encoder.lean ====
section
/-! DEFINITION. The frame encoder (spec 41_frame_encoder.md): the function `encode`, here `encodeFrame`, and the three
operations that latch a request and emit its stream a byte per step. -/

namespace Sys2Proof.Machine

/-- The start sequence `00 98 01`, neither stuffed nor covered by the checksum (R121). -/
def startSequence : List Byte := [0x00, Config.marker, Config.codeStart]

/-- The end sequence `98 02 00`, neither stuffed nor covered by the checksum (R121). -/
def endSequence : List Byte := [Config.marker, Config.codeEnd, 0x00]

/-- `encode(Address, Command, Data)` (R121). Both checksum bytes come from the one value over address, command and data
(R125). -/
def encodeFrame (addr : Half) (cmd : Byte) (data : List Byte) : List Byte :=
  startSequence ++ stuffAll (payload addr cmd data)
    ++ stuffAll (halfBytes (crcCompute (payload addr cmd data))) ++ endSequence

/-- `S`, the stream of the latched request (R123); `none` where a data byte has never been loaded. -/
def requestStream (s : State) : Option (List Byte) :=
  (s.reqData.readRange 0 s.reqDlen).map (encodeFrame s.reqAddr s.reqCmd)

/-- `ENC.LOAD` (R122). -/
def execEncLoad (index : Nat) (b : Byte) (s : State) : Answer :=
  if s.encBusy then .refused .encBusy
  else if s.params.maxDlen ≤ index then .refused .indexOutOfRange
  else .next { s with reqData := s.reqData.write index b }

/-- `ENC.START` (R123); a data length that covers a byte never loaded faults (R122, 70_reset_and_hazards.md R231). -/
def execEncStart (addr : Half) (cmd : Byte) (dlen : Nat) (s : State) : Answer :=
  if s.encBusy then .refused .encBusy
  else if s.params.maxDlen < dlen then .refused .dataTooLong
  else
    match s.reqData.readRange 0 dlen with
    | none => .fault .unwrittenReqData
    | some data =>
      .next { s with
        reqAddr := addr
        reqCmd := cmd
        reqDlen := dlen
        ecrc := crcCompute (payload addr cmd data)
        encPos := 0
        encBusy := true }

/-- `ENC.STEP` (R124): emit `S[ENC_POS]`; the step that emits the last byte clears ENC_BUSY. -/
def execEncStep (s : State) : Answer :=
  if s.encBusy then
    match requestStream s with
    | none => .fault .unwrittenReqData
    | some stream =>
      match stream[s.encPos]? with
      | none => .fault .encPosPastEnd
      | some b =>
        let last := s.encPos + 1 == stream.length
        .next (drivePorts { tx := some ⟨b, last⟩ } { s with encPos := s.encPos + 1, encBusy := !last })
  else .refused .encIdle

end Sys2Proof.Machine
end

