-- ==== Sys2Proof/Machine/Validator.lean ====
section
/-! DEFINITION. The broadcast-collision detector and frame validator (spec 43_validator.md): three stateless tests of the
latched response, and the decoding of a device-info reply's name and date. -/

namespace Sys2Proof.Machine

/-- The bytes `RSP_DATA[start .. start+n-1]` (10_state.md R28). -/
def rspSlice (s : State) (start n : Nat) : Option (List Byte) := s.buf.readRange (3 + start) n

/-- A verdict that carries no data; `collision` is what the operation drives (R187). -/
def judged (v : Verdict) (collision : Bool) (s : State) : Answer :=
  .next (drivePorts { verdict := some v, collision := some collision } s)

/-- The verdict of `VAL.GUID` (R181). -/
def guidVerdict (s : State) : Verdict :=
  if s.rspState = .success then if s.rspDlen = Config.guidLength then .accept else .dropLength
  else if s.rspState = .checksumError then .dropChecksum
  else .dropState

/-- The verdict of `VAL.INFO` (R183). -/
def infoVerdict (s : State) : Verdict :=
  if s.rspState = .checksumError then .dropChecksum
  else if s.rspState ≠ .success then .dropState
  else if s.rspResult ≠ 0 then .dropResult
  else if s.rspDlen < Config.infoLength then .dropLength
  else .accept

/-- The verdict of `VAL.ACK` (R186). -/
def ackVerdict (s : State) : Verdict :=
  if s.rspState = .checksumError then .dropChecksum
  else if s.rspState ≠ .success then .dropState
  else if s.rspResult ≠ 0 then .dropResult
  else .accept

/-- The suspicion of a collision: ResponseState is checksum-error (R182). -/
def collisionSuspected (s : State) : Bool := s.rspState == .checksumError

/-- `VAL.GUID` (R181): the 16 data bytes are the GUID, `Data[0]` in bits 127:120 (30_encoding.md R78). -/
def execValGuid (s : State) : Answer :=
  withResponse (fun s =>
    match guidVerdict s with
    | .accept =>
      match rspSlice s 0 16 with
      | none => .fault .bufOutOfRange
      | some g =>
        .next (drivePorts
          { verdict := some .accept, collision := some (collisionSuspected s), guid := some (bigEndian 128 g) } s)
    | v => judged v (collisionSuspected s) s) s

/-- `VAL.INFO` (R183): GUID at 0 to 15, name field at 16 to 47, date field at 48 to 53 of Data (20_memory.md R55). -/
def execValInfo (s : State) : Answer :=
  withResponse (fun s =>
    match infoVerdict s with
    | .accept =>
      match rspSlice s 0 16, rspSlice s 16 32, rspSlice s 48 6 with
      | some g, some name, some date =>
        .next (drivePorts
          { verdict := some .accept, collision := some false, guid := some (bigEndian 128 g),
            nameRaw := some name, dateRaw := some date } s)
      | _, _, _ => .fault .bufOutOfRange
    | v => judged v false s) s

/-- `VAL.ACK` (R186): neither Data nor FromAddress is tested. -/
def execValAck (s : State) : Answer := withResponse (fun s => judged (ackVerdict s) false s) s

/-- Printable ASCII, 0x20 to 0x7E (R184; 93 G3: the range is from general knowledge, log 21). -/
def printable (b : Byte) : Bool := decide (0x20 ≤ b.toNat) && decide (b.toNat ≤ 0x7E)

/-- One byte of the name field: a byte that is not printable is removed, a space after a space is skipped (R184). -/
def nameStep (out : List Byte) (b : Byte) : List Byte :=
  if printable b then if b = 0x20 && out.getLast? == some 0x20 then out else out ++ [b] else out

/-- `decode_name(bs)` (R184): filtered first, then collapsed, never trimmed. -/
def decodeName (bytes : List Byte) : List Byte := bytes.foldl nameStep []

/-- `decode_date(bs)` (R185): the bytes unchanged. -/
def decodeDate (bytes : List Byte) : List Byte := bytes

end Sys2Proof.Machine
end

