-- ==== Sys2Proof/Machine/Dispatch.lean ====
section
/-! DEFINITION. The meaning of every instruction, one arm per row of spec/opcode_table.json. -/

namespace Sys2Proof.Machine

def exec (i : Instr) (s : State) : Host.Outcome State Fault Refusal :=
  match i with
  | .esc => Sys2Proof.Machine.execEsc s
  | .sof => Sys2Proof.Machine.execSof s
  | .eof => Sys2Proof.Machine.execEof s
  | .rst => Sys2Proof.Machine.execRst s
  | .eor => Sys2Proof.Machine.execEor s
  | .mm => Sys2Proof.Machine.execMm s
  | .ign cc => Sys2Proof.Machine.execIgn cc s
  | .mrk => Sys2Proof.Machine.execMrk s
  | .data b => Sys2Proof.Machine.execData b s
  | .nop => Sys2Proof.Machine.execNop s
  | .crcInit => Sys2Proof.Machine.execCrcInit s
  | .crcUpdate b => Sys2Proof.Machine.execCrcUpdate b s
  | .crcRead => Sys2Proof.Machine.execCrcRead s
  | .encLoad index b => Sys2Proof.Machine.execEncLoad index b s
  | .encStart addr cmd dlen => Sys2Proof.Machine.execEncStart addr cmd dlen s
  | .encStep => Sys2Proof.Machine.execEncStep s
  | .decStart timeout => Sys2Proof.Machine.execDecStart timeout s
  | .decStep elapsed rd b => Sys2Proof.Machine.execDecStep elapsed rd b s
  | .valGuid => Sys2Proof.Machine.execValGuid s
  | .valInfo => Sys2Proof.Machine.execValInfo s
  | .valAck => Sys2Proof.Machine.execValAck s
  | .reservedC => Sys2Proof.Machine.execReservedC s
  | .reservedD => Sys2Proof.Machine.execReservedD s
  | .reservedE => Sys2Proof.Machine.execReservedE s
  | .reset => Sys2Proof.Machine.execReset s

end Sys2Proof.Machine
end

