-- ==== Sys2Proof/WellFormed.lean ====
section
/-! DEFINITION. Which terms of `Instr` stand for an encoding: `DATA b` with `b != 0x98` (spec 30_encoding.md R71,
R85) and `IGN cc` with `cc` not one of the six named codes (R72). Every other operand is unrestricted. -/

namespace Sys2Proof

/-- The codes that have a row of their own, so that `IGN` does not stand for them (30_encoding.md R72). -/
def namedCodes : List Byte :=
  [Config.codeEscape, Config.codeStart, Config.codeEnd, Config.codeRestart, Config.codeComplete, Config.marker]

/-- The instruction's operands lie in the ranges its encoding admits. -/
def WellFormed : Instr → Bool
  | .data b => b != Config.marker
  | .ign cc => !namedCodes.contains cc
  | .esc => true
  | .sof => true
  | .eof => true
  | .rst => true
  | .eor => true
  | .mm => true
  | .mrk => true
  | .nop => true
  | .crcInit => true
  | .crcUpdate _ => true
  | .crcRead => true
  | .encLoad _ _ => true
  | .encStart _ _ _ => true
  | .encStep => true
  | .decStart _ => true
  | .decStep _ _ _ => true
  | .valGuid => true
  | .valInfo => true
  | .valAck => true
  | .reservedC => true
  | .reservedD => true
  | .reservedE => true
  | .reset => true

end Sys2Proof
end

