-- ==== Sys2Proof/Decode.lean ====
section
/-! DEFINITION. Decoding, and after it the encoder. The decoder of wire bytes reads one byte at a time and never looks
ahead: `MODE` tells which reading the byte gets (spec 30_encoding.md R77, R87). The decoder of host operations
reads `op[3:0]` (R82). Both are total; the byte-list decoder rejects by name what is no symbol. -/

namespace Sys2Proof

/-- `arg_rd` (30_encoding.md R84). -/
def decodeRead (rd : BitVec 2) : ReadOutcome :=
  match rd.toNat with
  | 0 => .none
  | 1 => .byte
  | 2 => .err
  | _ => .reserved

/-- The wire symbol that a byte is in a mode (30_encoding.md R77, R87): in NORMAL mode the marker or an ordinary
byte, in AFTER_MARKER mode always a control code, the named ones tried before `IGN`. -/
def decodeSymbol (m : Mode) (b : Byte) : Instr :=
  match m with
  | .normal => if b = Config.marker then .mrk else .data b
  | .afterMarker =>
    if b = Config.codeEscape then .esc
    else if b = Config.codeStart then .sof
    else if b = Config.codeEnd then .eof
    else if b = Config.codeRestart then .rst
    else if b = Config.codeComplete then .eor
    else if b = Config.marker then .mm
    else .ign b

/-- The host operation that `op[3:0]` selects, with the operands it names (30_encoding.md R82, R84). -/
def decodeOp (p : Ports) : Instr :=
  match p.op.toNat with
  | 0x0 => .nop
  | 0x1 => .crcInit
  | 0x2 => .crcUpdate p.argByte
  | 0x3 => .crcRead
  | 0x4 => .encLoad p.argIndex p.argByte
  | 0x5 => .encStart p.argAddr p.argCmd p.argDlen
  | 0x6 => .encStep
  | 0x7 => .decStart p.argTimeout
  | 0x8 => .decStep p.argElapsed (decodeRead p.argRd) p.argByte
  | 0x9 => .valGuid
  | 0xA => .valInfo
  | 0xB => .valAck
  | 0xC => .reservedC
  | 0xD => .reservedD
  | 0xE => .reservedE
  | _ => .reset

/-- The one wire symbol that a row of bytes is, first byte first: one byte in format `B1`, or the marker and a control
code in format `C2` (30_encoding.md R70, R71). A lone marker is the row `MRK`, "byte 0 of every C2 row" (R87). -/
def decodeWire : List Byte → Except DecodeError Instr
  | [] => .error .empty
  | [b] => .ok (decodeSymbol .normal b)
  | [m, cc] => if m = Config.marker then .ok (decodeSymbol .afterMarker cc) else .error .noMarker
  | _ => .error .tooLong

/-- The decoder over both encodings. -/
def decode : Encoded → Except DecodeError Instr
  | .wire bytes => decodeWire bytes
  | .host p => .ok (decodeOp p)

/-- The mode after a byte has been read (30_encoding.md R77): AFTER_MARKER lasts for exactly one byte. -/
def modeAfter (m : Mode) (b : Byte) : Mode :=
  match m with
  | .normal => if b = Config.marker then .afterMarker else .normal
  | .afterMarker => .normal

/-- The symbols of a received stream read from a mode, and the mode it ends in (30_encoding.md R77). -/
def decodeStream (m : Mode) (bytes : List Byte) : List Instr × Mode :=
  match bytes with
  | [] => ([], m)
  | b :: rest =>
    let after := decodeStream (modeAfter m b) rest
    (decodeSymbol m b :: after.1, after.2)

/-- How a table word of `nbits` bits is presented (log 9). A 16-bit word is a `C2` pattern `{0x98, cc}`, first byte
in bits 15:8 (30_encoding.md R71). In a byte a value below 16 is `op[3:0]` with every operand port 0 (R82), any other
value is the one byte of format `B1`. -/
def presentTableWord (nbits w : Nat) : Encoded :=
  if nbits ≤ 8 then
    if w < 16 then .host { op := BitVec.ofNat 4 w } else .wire [BitVec.ofNat 8 w]
  else .wire [BitVec.ofNat 8 (w / 256), BitVec.ofNat 8 w]

/-- The instruction the decoder reads from a table word. -/
def decodeTableWord (nbits w : Nat) : Option Instr :=
  match decode (presentTableWord nbits w) with
  | .ok i => some i
  | .error _ => none

/-- `arg_rd` of a read outcome (30_encoding.md R84). -/
def encodeRead : ReadOutcome → BitVec 2
  | .none => 0
  | .byte => 1
  | .err => 2
  | .reserved => 3

/-- The control sequence `{0x98, cc}` (30_encoding.md R71). -/
def controlSequence (cc : Byte) : Encoded := .wire [Config.marker, cc]

/-- The encoder: the bytes of a wire symbol (30_encoding.md R71, R72) or the ports of a host operation (R82), the
ports the operation does not name at 0 (log 20). -/
def encode : Instr → Encoded
  | .esc => controlSequence Config.codeEscape
  | .sof => controlSequence Config.codeStart
  | .eof => controlSequence Config.codeEnd
  | .rst => controlSequence Config.codeRestart
  | .eor => controlSequence Config.codeComplete
  | .mm => controlSequence Config.marker
  | .ign cc => controlSequence cc
  | .mrk => .wire [Config.marker]
  | .data b => .wire [b]
  | .nop => .host { op := 0x0 }
  | .crcInit => .host { op := 0x1 }
  | .crcUpdate b => .host { op := 0x2, argByte := b }
  | .crcRead => .host { op := 0x3 }
  | .encLoad index b => .host { op := 0x4, argIndex := index, argByte := b }
  | .encStart addr cmd dlen => .host { op := 0x5, argAddr := addr, argCmd := cmd, argDlen := dlen }
  | .encStep => .host { op := 0x6 }
  | .decStart timeout => .host { op := 0x7, argTimeout := timeout }
  | .decStep elapsed rd b => .host { op := 0x8, argElapsed := elapsed, argRd := encodeRead rd, argByte := b }
  | .valGuid => .host { op := 0x9 }
  | .valInfo => .host { op := 0xA }
  | .valAck => .host { op := 0xB }
  | .reservedC => .host { op := 0xC }
  | .reservedD => .host { op := 0xD }
  | .reservedE => .host { op := 0xE }
  | .reset => .host { op := 0xF }

/-- The encoding formats of 30_encoding.md R70, R71, R82. -/
inductive Format where
  | b1
  | c2
  | op
  deriving DecidableEq, Repr

/-- A row of spec/opcode_table.json: the bits `mask` of a word have the value `pattern` (R87). -/
structure Row where
  mnemonic : String
  format : Format
  pattern : Nat
  mask : Nat
  priority : Nat
  deriving DecidableEq, Repr

/-- The opcode table, the rows of a format in priority order (30_encoding.md R87). -/
def opcodeTable : List Row :=
  [ ⟨"ESC", .c2, 0x9800, 0xFFFF, 1⟩, ⟨"SOF", .c2, 0x9801, 0xFFFF, 1⟩, ⟨"EOF", .c2, 0x9802, 0xFFFF, 1⟩,
    ⟨"RST", .c2, 0x9803, 0xFFFF, 1⟩, ⟨"EOR", .c2, 0x9804, 0xFFFF, 1⟩, ⟨"MM", .c2, 0x9898, 0xFFFF, 1⟩,
    ⟨"IGN", .c2, 0x9800, 0xFF00, 2⟩, ⟨"MRK", .b1, 0x98, 0xFF, 1⟩, ⟨"DATA", .b1, 0x00, 0x00, 2⟩,
    ⟨"NOP", .op, 0x0, 0xF, 1⟩, ⟨"CRC.INIT", .op, 0x1, 0xF, 1⟩, ⟨"CRC.UPDATE", .op, 0x2, 0xF, 1⟩,
    ⟨"CRC.READ", .op, 0x3, 0xF, 1⟩, ⟨"ENC.LOAD", .op, 0x4, 0xF, 1⟩, ⟨"ENC.START", .op, 0x5, 0xF, 1⟩,
    ⟨"ENC.STEP", .op, 0x6, 0xF, 1⟩, ⟨"DEC.START", .op, 0x7, 0xF, 1⟩, ⟨"DEC.STEP", .op, 0x8, 0xF, 1⟩,
    ⟨"VAL.GUID", .op, 0x9, 0xF, 1⟩, ⟨"VAL.INFO", .op, 0xA, 0xF, 1⟩, ⟨"VAL.ACK", .op, 0xB, 0xF, 1⟩,
    ⟨"RESERVED_C", .op, 0xC, 0xF, 1⟩, ⟨"RESERVED_D", .op, 0xD, 0xF, 1⟩, ⟨"RESERVED_E", .op, 0xE, 0xF, 1⟩,
    ⟨"RESET", .op, 0xF, 0xF, 1⟩ ]

/-- The format and the word of an encoding, as the table writes it: the first byte of a `C2` sequence in bits 15:8. -/
def tableWord : Encoded → Option (Format × Nat)
  | .wire [b] => some (.b1, b.toNat)
  | .wire [m, cc] => some (.c2, m.toNat * 256 + cc.toNat)
  | .wire _ => none
  | .host p => some (.op, p.op.toNat)

/-- The first row, in priority order, that an encoding matches (30_encoding.md R87). -/
def firstRow (e : Encoded) : Option String :=
  match tableWord e with
  | none => none
  | some (f, w) => (opcodeTable.find? fun r => r.format = f && w &&& r.mask == r.pattern).map Row.mnemonic

/-- The mnemonic of an instruction as the table spells it. -/
def mnemonic : Instr → String
  | .esc => "ESC"
  | .sof => "SOF"
  | .eof => "EOF"
  | .rst => "RST"
  | .eor => "EOR"
  | .mm => "MM"
  | .ign _ => "IGN"
  | .mrk => "MRK"
  | .data _ => "DATA"
  | .nop => "NOP"
  | .crcInit => "CRC.INIT"
  | .crcUpdate _ => "CRC.UPDATE"
  | .crcRead => "CRC.READ"
  | .encLoad _ _ => "ENC.LOAD"
  | .encStart _ _ _ => "ENC.START"
  | .encStep => "ENC.STEP"
  | .decStart _ => "DEC.START"
  | .decStep _ _ _ => "DEC.STEP"
  | .valGuid => "VAL.GUID"
  | .valInfo => "VAL.INFO"
  | .valAck => "VAL.ACK"
  | .reservedC => "RESERVED_C"
  | .reservedD => "RESERVED_D"
  | .reservedE => "RESERVED_E"
  | .reset => "RESET"

end Sys2Proof
end

