-- ==== Sys2Proof/Machine/Fetch.lean ====
section
/-! DEFINITION. Which instruction a step runs (spec 30_encoding.md R77, R82, R87; 10_state.md R32): the host operation
presented at the ports, or, for a `DEC.STEP` that has a byte to process, the wire symbol that the byte is. -/

namespace Sys2Proof.Machine

/-- The instruction the presented ports make the block run in a state (log 12). -/
def resolve (p : Ports) (s : State) : Instr :=
  match decodeOp p with
  | .decStep elapsed .byte b =>
    if s.decActive && !deadlinePassed elapsed s then decodeSymbol s.mode b else .decStep elapsed .byte b
  | i => i

/-- The step begins: the ports have been taken, and no output is driven yet (43_validator.md R187 "Outputs hold for the
step of the operation only"). -/
def beginStep (rest : List Ports) (s : State) : State := { s with input := rest, out := Outputs.idle }

/-- The instruction of the next step and the state it runs in; `none` when no operation is presented. -/
def fetch (s : State) : Option (Instr × State) :=
  match s.input with
  | [] => none
  | p :: rest => some (resolve p s, beginStep rest s)

/-- No operation is presented: the block "is idle and waits for operations" (70_reset_and_hazards.md R230; log 7). -/
def waitStep (s : State) : State := { s with out := Outputs.idle }

/-- The ports of a `DEC.STEP` at elapsed time 0 that delivers a byte. -/
def byteStep (b : Byte) : Ports := { op := 0x8, argRd := 1, argByte := b }

/-- A state in which the next step runs the encoded instruction (log 10). A host operation is presented next. A wire
symbol is presented as its last byte, delivered by a `DEC.STEP` of an active pass whose deadline has not passed; for a
control sequence the marker has been read, so that the mode is AFTER_MARKER. -/
def present (e : Encoded) (s : State) : State :=
  match e with
  | .host p => { s with input := p :: s.input }
  | .wire [b] => { s with input := byteStep b :: s.input, decActive := true, mode := .normal }
  | .wire [m, cc] =>
    if m = Config.marker then { s with input := byteStep cc :: s.input, decActive := true, mode := .afterMarker } else s
  | .wire _ => s

end Sys2Proof.Machine
end

