-- ==== Sys2Proof/Machine/Step.lean ====
section
/-! DEFINITION. One step (spec 00_scope.md R9): the host presents one operation, and it is one atomic transition or is
refused. -/

namespace Sys2Proof.Machine

/-- One step: the next instruction runs; with no operation presented the block waits. -/
def step (s : State) : Host.Outcome State Fault Refusal :=
  match fetch s with
  | none => .next (waitStep s)
  | some (i, t) => exec i t

/-- The state with the instruction of a table word presented to the next step. -/
def State.withFetchWord (s : State) (nbits w : Nat) : State := present (presentTableWord nbits w) s

end Sys2Proof.Machine
end

