-- ==== Sys2Proof/Machine/DeviceInfo.lean ====
section
/-! DEFINITION. The DeviceInfo that the host forms from the outputs of an accepting `VAL.INFO`, and what the bus-management
operations return (spec 43_validator.md R190, R191, 60_exceptions.md R217; log 16). -/

namespace Sys2Proof.Machine

/-- DeviceInfo: "derived from a Response's Data payload, never persisted" (R190). -/
structure DeviceInfo where
  guid : BitVec 128
  name : List Byte
  date : List Byte
  deriving DecidableEq, Repr

/-- The DeviceInfo of the outputs; none on a drop verdict, which the host reports as a failure (R190, R217). -/
def deviceInfo (o : Outputs) : Option DeviceInfo :=
  match o.verdict, o.guid, o.nameRaw, o.dateRaw with
  | some .accept, some g, some name, some date => some ⟨g, decodeName name, decodeDate date⟩
  | _, _, _, _ => none

/-- "a fatal, descriptive failure carrying the ResponseState and Result code" (R190, R217). -/
structure BusFailure where
  state : ResponseState
  result : Byte
  deriving DecidableEq, Repr

/-- The failure of the latched response. -/
def busFailure (s : State) : BusFailure := ⟨s.rspState, s.rspResult⟩

/-- What `getDeviceInfo` returns from the state after its `VAL.INFO` (R190). -/
def infoResult (s : State) : Except BusFailure DeviceInfo :=
  match deviceInfo s.out with
  | some d => .ok d
  | none => .error (busFailure s)

/-- What `assignAddress` returns from the state after its `VAL.ACK` (R191): "`ACCEPT` is success, anything else fails". -/
def assignResult (s : State) : Except BusFailure Unit :=
  if s.out.verdict = some .accept then .ok () else .error (busFailure s)

end Sys2Proof.Machine
end

