-- ==== Sys2Proof/Machine/Drive.lean ====
section
/-! DEFINITION. The block seen from its ports, with the `refused` output of spec 10_state.md R34. `step` gives a refused
operation no meaning, as 30_encoding.md R83 asks of a model; `drive` says what R83 says the block does with it: no state
changes, no byte is produced, and `refused` is 1 for the step (log 6). -/

namespace Sys2Proof.Machine

/-- The state after a step, and the output `refused` of that step. A refused operation is consumed from the ports and
drives no output, and every state element keeps its value. -/
def drive (s : State) : Host.Outcome (State × Bool) Fault Refusal :=
  match step s with
  | .next t => .next (t, false)
  | .fault f => .fault f
  | .refused _ => .next (beginStep s.input.tail s, true)

end Sys2Proof.Machine
end

