-- ==== Sys2Proof/Machine/HostSequences.lean ====
section
/-! DEFINITION. What the host puts into operations and takes out of them (spec 43_validator.md R188 to R191,
60_exceptions.md R216, 30_encoding.md R86). The host is the block's environment (00_scope.md R6(b)): these are plain
functions over requests, ports and outputs, no state of the block (log 16). -/

namespace Sys2Proof.Machine

/-- A Request: "{Address, Command, Data}" (10_state.md R22). -/
structure Request where
  addr : Half
  cmd : Byte
  data : List Byte
  deriving DecidableEq, Repr

/-- The discovery broadcast: address 0, the seed most significant byte first (R188, 20_memory.md R55). -/
def discoverRequest (seed : BitVec 32) : Request := ⟨0, Config.cmdDiscover, wordBytes seed⟩

/-- The device-info query, with empty Data (R190, log 17). -/
def infoRequest (addr : Half) : Request := ⟨addr, Config.cmdInfo, []⟩

/-- The address assignment: the 16 GUID bytes, then the target address high byte first, sent to the broadcast address
(R191, 20_memory.md R55, log 17). -/
def assignRequest (guid : List Byte) (target : Half) : Request := ⟨0, Config.cmdAssign, guid ++ halfBytes target⟩

/-- `REQ(addr, cmd, data)` (30_encoding.md R86). -/
def reqStream (r : Request) : List Byte := encodeFrame r.addr r.cmd r.data

/-- `RSP(addr, res, data)` (30_encoding.md R86): a stream the decoder completes with success. -/
def rspStream (addr : Half) (res : Byte) (data : List Byte) : List Byte :=
  [Config.marker, Config.codeRestart]
    ++ stuffAll (payload addr res data ++ halfBytes (crcCompute (payload addr res data)))
    ++ [Config.marker, Config.codeComplete]

/-- The `ENC.LOAD`s that place the data from an index on (70_reset_and_hazards.md R232 step 5). -/
def loadPorts (index : Nat) (data : List Byte) : List Ports :=
  match data with
  | [] => []
  | b :: rest => { op := 0x4, argIndex := index, argByte := b } :: loadPorts (index + 1) rest

/-- The operations that encode a request: load, start, one `ENC.STEP` per byte (R232 step 5). -/
def encodePorts (r : Request) : List Ports :=
  loadPorts 0 r.data ++ [{ op := 0x5, argAddr := r.addr, argCmd := r.cmd, argDlen := r.data.length }]
    ++ List.replicate (reqStream r).length { op := 0x6 }

/-- The `DEC.STEP`s that deliver received bytes at elapsed time 0 (R232 step 7). -/
def deliverPorts (bytes : List Byte) : List Ports := bytes.map byteStep

/-- The retry loop (60_exceptions.md R216): "a single loop of `retries + 1` bounded attempts", the first success or the
last attempt's outcome. From the outcomes of the attempts: how many are made, and the one returned. -/
def retryLoop (retries : Nat) (outcomes : List ResponseState) : Option (Nat × ResponseState) :=
  match outcomes with
  | [] => none
  | o :: rest =>
    if o = .success then some (1, o)
    else
      match retries with
      | 0 => some (1, o)
      | k + 1 => (retryLoop k rest).map fun r => (r.1 + 1, r.2)

/-- The `DEC.START` of one attempt's decode pass, "bounded by `timeout`" (R216 step 4). -/
def startPass (timeout : Time) : Ports := { op := 0x7, argTimeout := timeout }

/-- The `DEC.START` of every attempt of the retries form, whose timeout is DEFAULT_TIMEOUT (R216). -/
def startRetryPass : Ports := startPass Config.defaultTimeout

/-- The attempts of `getDeviceInfo`: 5 retries (43_validator.md R190). -/
def infoAttempts (outcomes : List ResponseState) : Option (Nat × ResponseState) :=
  retryLoop Config.infoRetries outcomes

/-- What discovery does with the outputs of a `VAL.GUID`: an accepted GUID is inserted, every drop is silent (R188).
The result is a set: equal GUIDs count once, the order of arrival is no part of it (R189). -/
def collectGuid (o : Outputs) (found : Finset (BitVec 128)) : Finset (BitVec 128) :=
  match o.verdict, o.guid with
  | some .accept, some g => insert g found
  | _, _ => found

/-- The set that discovery returns, from the outputs of its `VAL.GUID`s in the order of the passes (R188, R189). -/
def discovered (os : List Outputs) : Finset (BitVec 128) := os.foldl (fun found o => collectGuid o found) ∅

end Sys2Proof.Machine
end

