-- ==== Sys2Proof/Safety.lean ====
section
/-! DEFINITION. What counts as a sound state and a safe step, in the terms the statements use: the invariant that every
step keeps, the parts of the state by their owner (spec 10_state.md R36), runs of several steps, and the second reading of
the CRC of 40_crc_engine.md R106. -/

namespace Sys2Proof.Machine

/-- The memory has a byte at every index below `n`. -/
def Memory.covers (m : Memory) (n : Nat) : Prop := ∀ i, i < n → (m.read i).isSome

/-- No index of a memory reaches `n`. -/
def Memory.within (m : Memory) (n : Nat) : Prop := ∀ c ∈ m, c.1 < n

/-- The states the machine is meant to be in: the ranges of spec 10_state.md R20 to R29, the memories in canonical form
and inside their arrays, BUF with a byte at every index (20_memory.md R50), the encoder's stream and ECRC while it is busy (R23), at most one of "pass
active" and "response valid" (60_exceptions.md R206, R210), the response latch of a finished pass (R28, R201). -/
structure Sound (s : State) : Prop where
  cap_ge : 5 ≤ s.params.cap
  buf_wf : s.buf.wf
  buf_within : s.buf.within s.params.cap
  len_le : s.len ≤ s.params.cap
  buf_covers : s.buf.covers s.params.cap
  req_wf : s.reqData.wf
  req_within : s.reqData.within s.params.maxDlen
  reqDlen_le : s.reqDlen ≤ s.params.maxDlen
  busy_stream : s.encBusy = true → ∃ data, s.reqData.readRange 0 s.reqDlen = some data ∧
    s.ecrc = crcCompute (payload s.reqAddr s.reqCmd data) ∧
    s.encPos < (encodeFrame s.reqAddr s.reqCmd data).length
  one_phase : s.decActive = true → s.rspValid = false
  rspDlen_le : s.rspDlen ≤ s.params.cap - 5
  valid_state : s.rspValid = true →
    s.rspState = .success ∨ s.rspState = .timeout ∨ s.rspState = .checksumError ∨ s.rspState = .transportError
  valid_success : s.rspValid = true → s.rspState = .success → s.len = s.rspDlen + 5

/-- The step does not stop with a fault. A refusal is the block's own answer to an operation it does not admit. -/
def NoFault (o : Answer) : Prop := ∀ f, o ≠ .fault f

/-- Two states agree on every element of the encoder (10_state.md R22, R23). -/
def SameEncoder (s t : State) : Prop :=
  t.reqAddr = s.reqAddr ∧ t.reqCmd = s.reqCmd ∧ t.reqDlen = s.reqDlen ∧ t.reqData = s.reqData ∧
  t.encBusy = s.encBusy ∧ t.encPos = s.encPos ∧ t.ecrc = s.ecrc

/-- Two states agree on every element of the decoder but the response latch (10_state.md R24 to R29). -/
def SamePass (s t : State) : Prop :=
  t.decActive = s.decActive ∧ t.mode = s.mode ∧ t.buf = s.buf ∧ t.len = s.len ∧ t.tmo = s.tmo ∧ t.ovf = s.ovf

/-- Two states agree on the response latch (10_state.md R28). -/
def SameLatch (s t : State) : Prop :=
  t.rspValid = s.rspValid ∧ t.rspState = s.rspState ∧ t.rspAddr = s.rspAddr ∧ t.rspResult = s.rspResult ∧
  t.rspDlen = s.rspDlen

/-- Two states agree on every element of the decoder (10_state.md R24 to R29). -/
def SameDecoder (s t : State) : Prop := SamePass s t ∧ SameLatch s t

/-- Two states differ at most in the bytes of BUF at an index of LEN or more, which "have no meaning and no rule reads
them" (10_state.md R25). -/
def AgreeBelowLen (s t : State) : Prop :=
  t = { s with buf := t.buf } ∧ ∀ i, i < s.len → t.buf.read i = s.buf.read i

/-- Whose state an operation may change (10_state.md R36). -/
inductive Owner where
  | crc
  | encoder
  | decoder
  /-- `NOP`, the validator (which has no state, R20), the reserved codes. -/
  | nobody
  /-- `RESET`. -/
  | everybody
  deriving DecidableEq, Repr

/-- The owner of the state that an instruction works on (10_state.md R36). -/
def owner : Instr → Owner
  | .esc => .decoder
  | .sof => .decoder
  | .eof => .decoder
  | .rst => .decoder
  | .eor => .decoder
  | .mm => .decoder
  | .ign _ => .decoder
  | .mrk => .decoder
  | .data _ => .decoder
  | .nop => .nobody
  | .crcInit => .crc
  | .crcUpdate _ => .crc
  | .crcRead => .crc
  | .encLoad _ _ => .encoder
  | .encStart _ _ _ => .encoder
  | .encStep => .encoder
  | .decStart _ => .decoder
  | .decStep _ _ _ => .decoder
  | .valGuid => .nobody
  | .valInfo => .nobody
  | .valAck => .nobody
  | .reservedC => .nobody
  | .reservedD => .nobody
  | .reservedE => .nobody
  | .reset => .everybody

/-- `k` steps of the machine, stopping at the first fault or refusal. -/
def runSteps (k : Nat) (s : State) : Answer := Host.Core.run Sys2Proof.core k s

/-- One round of "reading B" of 40_crc_engine.md R106: test bit 0 of the state XOR the byte, shift both. The constant is the
literal of R106. -/
def readingBRound (v : Half × Byte) : Half × Byte :=
  (if v.1.getLsbD 0 != v.2.getLsbD 0 then (v.1 >>> 1) ^^^ 0xA001 else v.1 >>> 1, v.2 >>> 1)

/-- "Reading B" of 40_crc_engine.md R106: eight rounds. -/
def crcReadingB (s : Half) (b : Byte) : Half := (readingBRound^[8] (s, b)).1

/-- Runs of the space 0x20 collapsed to one space, every other byte kept (43_validator.md R184). Said of the whole list,
apart from the loop that `decodeName` is. -/
def collapseSpaces : List Byte → List Byte
  | [] => []
  | [b] => [b]
  | a :: b :: rest => if a = 0x20 ∧ b = 0x20 then collapseSpaces (b :: rest) else a :: collapseSpaces (b :: rest)

end Sys2Proof.Machine
end

