-- ==== Sys2Proof/Certificates/Slice0/Obligations.lean ====
section
/-! DEFINITION. The statements for the provers, from the numbered rules of the spec. -/

open Sys2Proof Sys2Proof.Machine

/-- 30_encoding.md R71, R72, R82, R84: the decoder gives back every well-formed instruction from its encoding, with
every operand. -/
def Obligations.DecodeOfEncode : Prop :=
  ∀ i : Instr, WellFormed i = true → decode (encode i) = .ok i

/-- 30_encoding.md R71, R72, R77: bytes that decode to a wire symbol are that symbol's encoding, and the symbol is
well-formed, so that every wire word has one meaning. -/
def Obligations.EncodeOfDecodedWire : Prop :=
  ∀ (bytes : List Byte) (i : Instr), decode (.wire bytes) = .ok i →
    encode i = .wire bytes ∧ WellFormed i = true

/-- Words written out from 30_encoding.md R71, R72, R82 decode to the instructions they stand for. How a table word is
presented to the decoder is the model's (log 9). -/
def Obligations.WrittenWordsDecode : Prop :=
  decodeTableWord 16 0b1001100000000000 = some .esc ∧
  decodeTableWord 16 0b1001100000000011 = some .rst ∧
  decodeTableWord 16 0b1001100000000100 = some .eor ∧
  decodeTableWord 16 0b1001100010011000 = some .mm ∧
  decodeTableWord 16 0b1001100000000111 = some (.ign 0x07) ∧
  decodeTableWord 8 0b10011000 = some .mrk ∧
  decodeTableWord 8 0b01000001 = some (.data 0x41) ∧
  decodeTableWord 8 0b0001 = some .crcInit ∧
  decodeTableWord 8 0b0110 = some .encStep ∧
  decodeTableWord 8 0b1001 = some .valGuid ∧
  decodeTableWord 8 0b1111 = some .reset

/-- 30_encoding.md R76, R77: read in NORMAL mode, a stuffed sequence is, byte for byte, an ordinary byte or the control
sequence `98 00`, and ends in NORMAL mode. -/
def Obligations.StuffedStreamDecodes : Prop :=
  ∀ bytes : List Byte,
    decodeStream .normal (stuffAll bytes) =
      (bytes.flatMap fun b => if b = 0x98 then [Instr.mrk, Instr.esc] else [Instr.data b], Mode.normal)

/-- 40_crc_engine.md R106: the two readings of the document's sentence compute the same value for every state and
byte. Reading B is written with the literal 0xA001. -/
def Obligations.CrcReadingsAgree : Prop :=
  ∀ (s : Half) (b : Byte), crcUpdate s b = crcReadingB s b

/-- 40_crc_engine.md R102, R103: `CRC.INIT` and `CRC.UPDATE`, their codes, and that nothing but ACC changes. -/
def Obligations.CrcInitAndUpdateResult : Prop :=
  ∀ (s : State) (p : Ports) (b : Byte),
    (p.op = 0x1 → decodeOp p = .crcInit) ∧
    exec .crcInit s = .next { s with acc := 0xFFFF } ∧
    (p.op = 0x2 → decodeOp p = .crcUpdate p.argByte) ∧
    exec (.crcUpdate b) s = .next { s with acc := crcUpdate s.acc b }

/-- 40_crc_engine.md R104: `CRC.READ` outputs ACC and changes no state; after `CRC.INIT` and an update with each byte of
a sequence it reads that sequence's checksum. -/
def Obligations.IncrementalCrcRead : Prop :=
  (∀ p : Ports, p.op = 0x3 → decodeOp p = .crcRead) ∧
  (∀ s : State, exec .crcRead s = .next { s with out := { acc := some s.acc } }) ∧
  ∀ (s : State) (bytes : List Byte),
    s.input = ({ op := 0x1 } : Ports) :: (bytes.map fun b => ({ op := 0x2, argByte := b } : Ports)) ++ [{ op := 0x3 }] →
    ∃ t, runSteps (bytes.length + 2) s = .next t ∧ t.out.acc = some (crcCompute bytes) ∧
      t.acc = crcCompute bytes ∧ SameEncoder s t ∧ SameDecoder s t

/-- 42_frame_decoder.md R160 with 93 G2: two payloads of one length that differ in exactly one byte, so in particular in
one bit, have different checksums. -/
def Obligations.OneByteErrorChangesChecksum : Prop :=
  ∀ (front back : List Byte) (b c : Byte), b ≠ c →
    crcCompute (front ++ [b] ++ back) ≠ crcCompute (front ++ [c] ++ back)

/-- 41_frame_encoder.md R122: an accepted `ENC.LOAD` writes the one byte at its index and nothing else. -/
def Obligations.EncLoadResult : Prop :=
  ∀ (s : State) (index : Nat) (b : Byte), s.encBusy = false → index < s.params.maxDlen →
    ∃ m : Memory, exec (.encLoad index b) s = .next { s with reqData := m } ∧
      m.read index = some b ∧ ∀ j, j ≠ index → m.read j = s.reqData.read j

/-- 41_frame_encoder.md R123: an accepted `ENC.START` over loaded bytes latches the request, takes its checksum and
starts the stream; nothing else changes. -/
def Obligations.EncStartResult : Prop :=
  ∀ (s : State) (addr : Half) (cmd : Byte) (data : List Byte), s.encBusy = false →
    data.length ≤ s.params.maxDlen → (∀ k, k < data.length → s.reqData.read k = data[k]?) →
    exec (.encStart addr cmd data.length) s = .next { s with
      reqAddr := addr
      reqCmd := cmd
      reqDlen := data.length
      ecrc := crcCompute ([hi addr, lo addr, cmd] ++ data)
      encPos := 0
      encBusy := true }

/-- 41_frame_encoder.md R124: an accepted `ENC.STEP` emits the byte at ENC_POS of the stream of the latched request,
marks the last byte, advances ENC_POS and clears ENC_BUSY with the last byte; nothing else changes. -/
def Obligations.EncStepResult : Prop :=
  ∀ (s : State) (data : List Byte) (b : Byte), s.encBusy = true → data.length = s.reqDlen →
    (∀ k, k < data.length → s.reqData.read k = data[k]?) →
    (encodeFrame s.reqAddr s.reqCmd data)[s.encPos]? = some b →
    exec .encStep s = .next { s with
      out := { tx := some ⟨b, decide (s.encPos + 1 = (encodeFrame s.reqAddr s.reqCmd data).length)⟩ }
      encPos := s.encPos + 1
      encBusy := decide (s.encPos + 1 ≠ (encodeFrame s.reqAddr s.reqCmd data).length) }

/-- 41_frame_encoder.md R122, R123, R124, 30_encoding.md R83: which encoder operations the block turns away. -/
def Obligations.EncoderTurnsAway : Prop :=
  ∀ (s : State) (index dlen : Nat) (b cmd : Byte) (addr : Half),
    (s.encBusy = true →
      exec (.encLoad index b) s = .refused .encBusy ∧ exec (.encStart addr cmd dlen) s = .refused .encBusy) ∧
    (s.encBusy = false →
      (s.params.maxDlen ≤ index → exec (.encLoad index b) s = .refused .indexOutOfRange) ∧
      (s.params.maxDlen < dlen → exec (.encStart addr cmd dlen) s = .refused .dataTooLong) ∧
      exec .encStep s = .refused .encIdle)

/-- 41_frame_encoder.md R122, 70_reset_and_hazards.md R231: an `ENC.START` that covers a byte never loaded faults. The spec
lets a model fault or refuse here; the fault is the model's choice (log 5). -/
def Obligations.UnwrittenRequestDataFaults : Prop :=
  ∀ (s : State) (addr : Half) (cmd : Byte) (dlen i : Nat), s.encBusy = false → dlen ≤ s.params.maxDlen →
    i < dlen → s.reqData.read i = none → exec (.encStart addr cmd dlen) s = .fault .unwrittenReqData

/-- 41_frame_encoder.md R121, R127: an encoded frame is `00 98 01`, the stuffed address, command, data and checksum, and
`98 02 00`; its length, the length's bounds, and where the marker can stand in it. -/
def Obligations.EncodedFrameShape : Prop :=
  ∀ (addr : Half) (cmd : Byte) (data : List Byte),
    encodeFrame addr cmd data =
      [0x00, 0x98, 0x01] ++
      (([addr.extractLsb' 8 8, addr.extractLsb' 0 8, cmd] ++ data ++
        [(crcCompute ([addr.extractLsb' 8 8, addr.extractLsb' 0 8, cmd] ++ data)).extractLsb' 8 8,
         (crcCompute ([addr.extractLsb' 8 8, addr.extractLsb' 0 8, cmd] ++ data)).extractLsb' 0 8]).flatMap
        fun b => if b = 0x98 then [0x98, 0x00] else [b]) ++
      [0x98, 0x02, 0x00] ∧
    (encodeFrame addr cmd data).length =
      data.length + 11 + (payload addr cmd data ++ halfBytes (crcCompute (payload addr cmd data))).count 0x98 ∧
    11 ≤ (encodeFrame addr cmd data).length ∧
    (encodeFrame addr cmd data).length ≤ 2 * data.length + 16 ∧
    ∀ i : Nat, (encodeFrame addr cmd data)[i]? = some 0x98 →
      (encodeFrame addr cmd data)[i + 1]? = some 0x00 ∨ (encodeFrame addr cmd data)[i + 1]? = some 0x01 ∨
      (encodeFrame addr cmd data)[i + 1]? = some 0x02

/-- 41_frame_encoder.md R124, 70_reset_and_hazards.md R232 (5): loading a request, starting it and stepping once per byte
emits exactly its encoded stream, in order, the last byte marked, and leaves the encoder idle and the other sub-blocks
as they were. -/
def Obligations.EncodePassEmitsRequest : Prop :=
  ∀ (s : State) (r : Request), s.encBusy = false → r.data.length ≤ s.params.maxDlen → s.input = encodePorts r →
    (∀ k, k < (reqStream r).length → ∃ t b, runSteps (r.data.length + 1 + (k + 1)) s = .next t ∧
      (reqStream r)[k]? = some b ∧ t.out.tx = some ⟨b, decide (k + 1 = (reqStream r).length)⟩) ∧
    ∃ t, runSteps (encodePorts r).length s = .next t ∧ t.encBusy = false ∧
      t.encPos = (reqStream r).length ∧ t.acc = s.acc ∧ SameDecoder s t

/-- 42_frame_decoder.md R141: an accepted `DEC.START` begins a pass in NORMAL mode with an empty buffer; only the
elements the rule names change. While a pass is active it is refused. -/
def Obligations.DecStartResult : Prop :=
  ∀ (s : State) (timeout : Time),
    (s.decActive = false → exec (.decStart timeout) s = .next { s with
      mode := .normal
      len := 0
      ovf := false
      tmo := timeout
      rspValid := false
      decActive := true }) ∧
    (s.decActive = true → exec (.decStart timeout) s = .refused .passActive)

/-- 42_frame_decoder.md R145: with the deadline not passed and no byte available, `DEC.STEP` changes no state. -/
def Obligations.IdleReadChangesNothing : Prop :=
  ∀ (s : State) (elapsed : Time) (b : Byte), s.decActive = true → elapsed.toNat ≤ s.tmo.toNat →
    exec (.decStep elapsed .none b) s = .next s

/-- 42_frame_decoder.md R144, 60_exceptions.md R204, R206: with the deadline not passed, a failed read ends the pass with
port-error; MODE, BUF and LEN are left as they were, and so is everything but the response latch. -/
def Obligations.FailedReadEndsPass : Prop :=
  ∀ (s : State) (elapsed : Time) (b : Byte), s.decActive = true → elapsed.toNat ≤ s.tmo.toNat →
    ∃ t, exec (.decStep elapsed .err b) s = .next t ∧
      t.rspState = .transportError ∧ t.rspValid = true ∧ t.decActive = false ∧
      t.mode = s.mode ∧ t.buf = s.buf ∧ t.len = s.len ∧ t.tmo = s.tmo ∧ t.ovf = s.ovf ∧
      t.acc = s.acc ∧ SameEncoder s t ∧ t.params = s.params ∧ t.input = s.input ∧ t.out = s.out

/-- 42_frame_decoder.md R143, 60_exceptions.md R202, R206, R209: once the deadline has passed, an accepted `DEC.STEP`
ends the pass with timeout whatever the read outcome, and reads no byte: MODE, BUF and LEN are left as they were. -/
def Obligations.DeadlineEndsPass : Prop :=
  ∀ (s : State) (elapsed : Time) (rd : ReadOutcome) (b : Byte), s.decActive = true → rd ≠ .reserved →
    s.tmo.toNat < elapsed.toNat →
    ∃ t, exec (.decStep elapsed rd b) s = .next t ∧
      t.rspState = .timeout ∧ t.rspValid = true ∧ t.decActive = false ∧
      t.mode = s.mode ∧ t.buf = s.buf ∧ t.len = s.len ∧ t.tmo = s.tmo ∧ t.ovf = s.ovf ∧
      t.acc = s.acc ∧ SameEncoder s t ∧ t.params = s.params ∧ t.input = s.input ∧ t.out = s.out

/-- 42_frame_decoder.md R142, R162, 30_encoding.md R83: `DEC.STEP`, and with it every wire symbol, is turned away outside
a pass, and in a pass with the reserved read outcome. That a wire symbol outside a pass is refused as its `DEC.STEP` is,
and that a refusal is an outcome of its own, is the model's form (log 6, log 11). -/
def Obligations.DecoderTurnsAway : Prop :=
  (∀ (s : State) (elapsed : Time) (b : Byte), s.decActive = true →
    exec (.decStep elapsed .reserved b) s = .refused .reservedRead) ∧
  ∀ (s : State) (elapsed : Time) (rd : ReadOutcome) (m : Mode) (b : Byte), s.decActive = false →
    exec (.decStep elapsed rd b) s = .refused .noPass ∧ exec (decodeSymbol m b) s = .refused .noPass

/-- 42_frame_decoder.md R142, 30_encoding.md R77: in an active pass before the deadline, a `DEC.STEP` with a byte runs
the wire symbol that the byte is in the current mode. -/
def Obligations.DeliveredByteRunsItsSymbol : Prop :=
  ∀ (s : State) (elapsed : Time) (b : Byte), s.decActive = true → elapsed.toNat ≤ s.tmo.toNat →
    exec (.decStep elapsed .byte b) s = exec (decodeSymbol s.mode b) s

/-- 42_frame_decoder.md R146 (with `BufAppend` of 20_memory.md R56): in NORMAL mode every byte but the marker is `DATA`,
and it is appended: at LEN below capacity, at 0 after the silent reset of a full buffer, which sets OVF. Every other byte
of BUF and every other element stays, MODE among them. -/
def Obligations.OrdinaryByteIsAppended : Prop :=
  (∀ b : Byte, b ≠ 0x98 → decodeSymbol .normal b = .data b) ∧
  ∀ (s : State) (b : Byte), s.decActive = true →
    ∃ m : Memory,
      exec (.data b) s = .next { s with
        buf := m
        len := (if s.len = s.params.cap then 0 else s.len) + 1
        ovf := s.ovf || decide (s.len = s.params.cap) } ∧
      ∀ j, m.read j = if j = (if s.len = s.params.cap then 0 else s.len) then some b else s.buf.read j

/-- 42_frame_decoder.md R147: the marker read in NORMAL mode only sets the mode to AFTER_MARKER. -/
def Obligations.MarkerSetsMode : Prop :=
  decodeSymbol .normal 0x98 = .mrk ∧
  ∀ s : State, s.decActive = true → exec .mrk s = .next { s with mode := .afterMarker }

/-- 42_frame_decoder.md R148, R153: `98 00` and `98 98` append one data byte 0x98 and return to NORMAL mode. -/
def Obligations.EscapedMarkerIsAppended : Prop :=
  decodeSymbol .afterMarker 0x00 = .esc ∧ decodeSymbol .afterMarker 0x98 = .mm ∧
  ∀ s : State, s.decActive = true →
    ∃ m : Memory,
      exec .esc s = .next { s with
        buf := m
        len := (if s.len = s.params.cap then 0 else s.len) + 1
        ovf := s.ovf || decide (s.len = s.params.cap)
        mode := .normal } ∧
      exec .mm s = exec .esc s ∧
      ∀ j, m.read j = if j = (if s.len = s.params.cap then 0 else s.len) then some 0x98 else s.buf.read j

/-- 42_frame_decoder.md R149: `98 03` empties the buffer and returns to NORMAL mode; OVF, the deadline and the pass
stay. -/
def Obligations.RestartEmptiesBuffer : Prop :=
  decodeSymbol .afterMarker 0x03 = .rst ∧
  ∀ s : State, s.decActive = true → exec .rst s = .next { s with len := 0, mode := .normal }

/-- 42_frame_decoder.md R154, 30_encoding.md R80: every control code but 00, 03, 04 and 98, the encoder's 01 and 02 among
them, only returns to NORMAL mode. -/
def Obligations.OtherCodesAreIgnored : Prop :=
  ∀ (s : State) (cc : Byte), s.decActive = true → cc ≠ 0x00 → cc ≠ 0x03 → cc ≠ 0x04 → cc ≠ 0x98 →
    (decodeSymbol .afterMarker cc = .sof ∨ decodeSymbol .afterMarker cc = .eof ∨
      decodeSymbol .afterMarker cc = .ign cc) ∧
    exec (decodeSymbol .afterMarker cc) s = .next { s with mode := .normal } ∧
    exec .sof s = .next { s with mode := .normal } ∧
    exec .eof s = .next { s with mode := .normal } ∧
    exec (.ign cc) s = .next { s with mode := .normal }

/-- 42_frame_decoder.md R150, 60_exceptions.md R206: a trigger whose received checksum matches ends the pass with success
and latches FromAddress, Result and the length of Data, which stays readable through RSP_DATA; nothing else changes. -/
def Obligations.MatchingFrameSucceeds : Prop :=
  ∀ (s : State) (a0 a1 r h l : Byte) (data : List Byte), s.decActive = true → s.len = data.length + 5 →
    (∀ k, k < s.len → s.buf.read k = ([a0, a1, r] ++ data ++ [h, l])[k]?) →
    crcCompute ([a0, a1, r] ++ data) = (h ++ l : BitVec 16) →
    ∃ t, exec .eor s = .next t ∧
      t = { s with
        mode := .normal
        rspState := .success
        rspValid := true
        decActive := false
        rspAddr := (a0 ++ a1 : BitVec 16)
        rspResult := r
        rspDlen := data.length } ∧
      ∀ i, i < data.length → rspData t i = data[i]?

/-- 42_frame_decoder.md R151, 60_exceptions.md R203, R206: a trigger whose received checksum differs ends the pass with
checksum-error; BUF and LEN keep their values, and so does everything but the response latch and MODE. -/
def Obligations.MismatchedFrameFails : Prop :=
  ∀ (s : State) (a0 a1 r h l : Byte) (data : List Byte), s.decActive = true → s.len = data.length + 5 →
    (∀ k, k < s.len → s.buf.read k = ([a0, a1, r] ++ data ++ [h, l])[k]?) →
    crcCompute ([a0, a1, r] ++ data) ≠ (h ++ l : BitVec 16) →
    ∃ t, exec .eor s = .next t ∧
      t.rspState = .checksumError ∧ t.rspValid = true ∧ t.decActive = false ∧ t.mode = .normal ∧
      t.buf = s.buf ∧ t.len = s.len ∧ t.tmo = s.tmo ∧ t.ovf = s.ovf ∧
      t.acc = s.acc ∧ SameEncoder s t ∧ t.params = s.params ∧ t.input = s.input ∧ t.out = s.out

/-- 42_frame_decoder.md R152: a trigger with at most 4 buffered bytes is ignored: the buffer and the pass stay. -/
def Obligations.ShortTriggerIsIgnored : Prop :=
  decodeSymbol .afterMarker 0x04 = .eor ∧
  ∀ s : State, s.decActive = true → s.len ≤ 4 → exec .eor s = .next { s with mode := .normal }

/-- 42_frame_decoder.md R155, R162: the table of mode transitions, complete: in an active pass of a sound state every byte
in every mode has exactly the effect of its row. -/
def Obligations.ModeTransitionTable : Prop :=
  ∀ (s : State) (b : Byte), Sound s → s.decActive = true →
    ∃ t, exec (decodeSymbol s.mode b) s = .next t ∧
      (s.mode = .normal → b ≠ 0x98 → t = bufAppend b s) ∧
      (s.mode = .normal → b = 0x98 → t = { s with mode := .afterMarker }) ∧
      (s.mode = .afterMarker → b = 0x00 → t = { bufAppend 0x98 s with mode := .normal }) ∧
      (s.mode = .afterMarker → b = 0x03 → t = { s with len := 0, mode := .normal }) ∧
      (s.mode = .afterMarker → b = 0x04 → 4 < s.len →
        t.mode = .normal ∧ t.buf = s.buf ∧ t.len = s.len ∧ t.decActive = false ∧ t.rspValid = true ∧
        ∃ bytes, s.buf.readRange 0 s.len = some bytes ∧
          ((frameFields bytes).received = crcCompute (frameFields bytes).covered → t.rspState = .success) ∧
          ((frameFields bytes).received ≠ crcCompute (frameFields bytes).covered → t.rspState = .checksumError)) ∧
      (s.mode = .afterMarker → b = 0x04 → s.len ≤ 4 → t = { s with mode := .normal }) ∧
      (s.mode = .afterMarker → b = 0x98 → t = { bufAppend 0x98 s with mode := .normal }) ∧
      (s.mode = .afterMarker → b ≠ 0x00 → b ≠ 0x03 → b ≠ 0x04 → b ≠ 0x98 → t = { s with mode := .normal })

/-- 42_frame_decoder.md R159, R163: for every address, result and data that fit the buffer, the stream `RSP` delivered to
an active pass in NORMAL mode, whatever the buffer holds, ends it with success and gives them back. -/
def Obligations.ResponseStreamRoundTrips : Prop :=
  ∀ (s : State) (addr : Half) (res : Byte) (data : List Byte), s.decActive = true → s.mode = .normal →
    data.length + 5 ≤ s.params.cap → s.input = deliverPorts (rspStream addr res data) →
    ∃ t, runSteps (rspStream addr res data).length s = .next t ∧ t.input = [] ∧
      t.decActive = false ∧ t.rspValid = true ∧ t.rspState = .success ∧
      t.rspAddr = addr ∧ t.rspResult = res ∧ t.rspDlen = data.length ∧
      ∀ i, i < data.length → rspData t i = data[i]?

/-- 41_frame_encoder.md R130, 42_frame_decoder.md R159: the block's own request frame, delivered to an active pass in NORMAL
mode, never completes it, whatever the buffer holds and whether or not the frame fits it: the pass is still active, in
NORMAL mode, and the response latch is as it was. In a buffer that was empty and that the frame fits there are then a
0x00, the payload and checksum, and a 0x00. -/
def Obligations.OwnRequestStaysPending : Prop :=
  ∀ (s : State) (addr : Half) (cmd : Byte) (data : List Byte), s.decActive = true → s.mode = .normal →
    s.input = deliverPorts (encodeFrame addr cmd data) →
    ∃ t, runSteps (encodeFrame addr cmd data).length s = .next t ∧ t.input = [] ∧
      t.decActive = true ∧ t.mode = .normal ∧ SameLatch s t ∧
      (s.len = 0 → data.length + 7 ≤ s.params.cap →
        t.len = data.length + 7 ∧
        t.buf.readRange 0 t.len =
          some ([0x00] ++ payload addr cmd data ++ halfBytes (crcCompute (payload addr cmd data)) ++ [0x00]))

/-- 10_state.md R25: bytes of BUF at an index of LEN or more have no meaning: from a sound state, no instruction does
anything that depends on them. -/
def Obligations.StaleBufferBytesAreUnread : Prop :=
  ∀ (i : Instr) (s t : State), Sound s → AgreeBelowLen s t →
    (∀ s', exec i s = .next s' → ∃ t', exec i t = .next t' ∧ AgreeBelowLen s' t') ∧
    (∀ f, exec i s = .fault f → exec i t = .fault f) ∧
    (∀ r, exec i s = .refused r → exec i t = .refused r)

/-- 60_exceptions.md R201: of the eight ResponseStates no instruction but `RESET`, after which RSP_STATE is unspecified,
writes any other than success, timeout, checksum-error and port-error. -/
def Obligations.OnlyFourOutcomesAreWritten : Prop :=
  ∀ (i : Instr) (s t : State), exec i s = .next t → i ≠ .reset →
    t.rspState = s.rspState ∨ t.rspState = .success ∨ t.rspState = .timeout ∨ t.rspState = .checksumError ∨
    t.rspState = .transportError

/-- 42_frame_decoder.md R156, 60_exceptions.md R206: the only instructions that end a pass are a `DEC.STEP` (or the symbol
`EOR` it runs), which latches a response, and `RESET`, which does not. -/
def Obligations.OnlyStepOrResetEndsPass : Prop :=
  ∀ (i : Instr) (s t : State), exec i s = .next t → s.decActive = true → t.decActive = false →
    (i = .reset ∧ t.rspValid = false) ∨
    (t.rspValid = true ∧ (i = .eor ∨ ∃ elapsed rd b, i = .decStep elapsed rd b))

/-- 43_validator.md R181 (with R182, R187, 30_encoding.md R78): `VAL.GUID`, its code, its refusal, its four verdicts, the
collision output, and the GUID with `Data[0]` in bits 127:120; no state element changes. -/
def Obligations.GuidVerdictResult : Prop :=
  (∀ p : Ports, p.op = 0x9 → decodeOp p = .valGuid) ∧
  (∀ s : State, s.rspValid = false → exec .valGuid s = .refused .noResponse) ∧
  ∀ s : State, s.rspValid = true →
    (∀ g : List Byte, s.rspState = .success → s.rspDlen = 16 → g.length = 16 →
      (∀ k, k < 16 → s.buf.read (3 + k) = g[k]?) →
      ∃ v : BitVec 128,
        exec .valGuid s = .next { s with out := { verdict := some .accept, collision := some false, guid := some v } } ∧
        ∀ k b, g[k]? = some b → v.extractLsb' (120 - 8 * k) 8 = b) ∧
    (s.rspState = .success → s.rspDlen ≠ 16 →
      exec .valGuid s = .next { s with out := { verdict := some .dropLength, collision := some false } }) ∧
    (s.rspState = .checksumError →
      exec .valGuid s = .next { s with out := { verdict := some .dropChecksum, collision := some true } }) ∧
    (s.rspState ≠ .success → s.rspState ≠ .checksumError →
      exec .valGuid s = .next { s with out := { verdict := some .dropState, collision := some false } })

/-- 43_validator.md R183: `VAL.INFO`, its code, its refusal, its five verdicts, tested in the rule's order, and on
acceptance the GUID and the raw name and date fields; no state element changes. -/
def Obligations.InfoVerdictResult : Prop :=
  (∀ p : Ports, p.op = 0xA → decodeOp p = .valInfo) ∧
  (∀ s : State, s.rspValid = false → exec .valInfo s = .refused .noResponse) ∧
  ∀ s : State, s.rspValid = true →
    (∀ g name date : List Byte, s.rspState = .success → s.rspResult = 0 → 54 ≤ s.rspDlen →
      g.length = 16 → name.length = 32 → date.length = 6 →
      (∀ k, k < 54 → s.buf.read (3 + k) = (g ++ name ++ date)[k]?) →
      ∃ v : BitVec 128,
        exec .valInfo s = .next { s with out :=
          { verdict := some .accept, collision := some false, guid := some v, nameRaw := some name,
            dateRaw := some date } } ∧
        ∀ k b, g[k]? = some b → v.extractLsb' (120 - 8 * k) 8 = b) ∧
    (s.rspState = .success → s.rspResult = 0 → s.rspDlen < 54 →
      exec .valInfo s = .next { s with out := { verdict := some .dropLength, collision := some false } }) ∧
    (s.rspState = .success → s.rspResult ≠ 0 →
      exec .valInfo s = .next { s with out := { verdict := some .dropResult, collision := some false } }) ∧
    (s.rspState = .checksumError →
      exec .valInfo s = .next { s with out := { verdict := some .dropChecksum, collision := some false } }) ∧
    (s.rspState ≠ .success → s.rspState ≠ .checksumError →
      exec .valInfo s = .next { s with out := { verdict := some .dropState, collision := some false } })

/-- 43_validator.md R186: `VAL.ACK`, its code, its refusal and its four verdicts; no state element changes. -/
def Obligations.AckVerdictResult : Prop :=
  (∀ p : Ports, p.op = 0xB → decodeOp p = .valAck) ∧
  (∀ s : State, s.rspValid = false → exec .valAck s = .refused .noResponse) ∧
  ∀ s : State, s.rspValid = true →
    (s.rspState = .success → s.rspResult = 0 →
      exec .valAck s = .next { s with out := { verdict := some .accept, collision := some false } }) ∧
    (s.rspState = .success → s.rspResult ≠ 0 →
      exec .valAck s = .next { s with out := { verdict := some .dropResult, collision := some false } }) ∧
    (s.rspState = .checksumError →
      exec .valAck s = .next { s with out := { verdict := some .dropChecksum, collision := some false } }) ∧
    (s.rspState ≠ .success → s.rspState ≠ .checksumError →
      exec .valAck s = .next { s with out := { verdict := some .dropState, collision := some false } })

/-- 43_validator.md R180: without a finished pass the three validator operations are refused, and when one of them gives
a next state, only the output ports differ from the state before. -/
def Obligations.ValidatorOnlyJudges : Prop :=
  ∀ s : State,
    (s.rspValid = false → exec .valGuid s = .refused .noResponse ∧ exec .valInfo s = .refused .noResponse ∧
      exec .valAck s = .refused .noResponse) ∧
    ∀ t, exec .valGuid s = .next t ∨ exec .valInfo s = .next t ∨ exec .valAck s = .next t →
      t = { s with out := t.out }

/-- 43_validator.md R184: a name is decoded by removing what is not printable and then collapsing each run of spaces to
one, without trimming. So it holds only printable bytes and never two spaces in a row; it keeps every printable byte other
than a space, in order, and adds nothing; and a space read next is kept exactly when the last byte kept is no space. The range 0x20 to 0x7E is general knowledge (log 21). -/
def Obligations.DecodedNameIsCollapsed : Prop :=
  ∀ bytes : List Byte,
    (∀ b ∈ decodeName bytes, 0x20 ≤ b.toNat ∧ b.toNat ≤ 0x7E) ∧
    (∀ i : Nat, (decodeName bytes)[i]? = some 0x20 → (decodeName bytes)[i + 1]? ≠ some 0x20) ∧
    (decodeName bytes).filter (· ≠ 0x20) =
      bytes.filter (fun b => decide (0x20 < b.toNat) && decide (b.toNat ≤ 0x7E)) ∧
    (decodeName bytes).Sublist bytes ∧
    decodeName bytes =
      collapseSpaces (bytes.filter fun b => decide (0x20 ≤ b.toNat) && decide (b.toNat ≤ 0x7E)) ∧
    decodeName (bytes ++ [0x20]) =
      if (decodeName bytes).getLast? = some 0x20 then decodeName bytes else decodeName bytes ++ [0x20]

/-- 60_exceptions.md R216: a request whose first `retries + 1` attempts fail makes exactly these and returns the outcome of
the last of them, whatever further attempts would have given, a success too; one that succeeds within `retries + 1`
attempts stops at the first success. -/
def Obligations.RetryBound : Prop :=
  ∀ (retries : Nat) (outcomes : List ResponseState),
    (retries + 1 ≤ outcomes.length → (∀ o ∈ outcomes.take (retries + 1), o ≠ .success) →
      retryLoop retries outcomes = outcomes[retries]?.map fun o => (retries + 1, o)) ∧
    (∀ (before after : List ResponseState), before.length ≤ retries → (∀ o ∈ before, o ≠ .success) →
      outcomes = before ++ .success :: after → retryLoop retries outcomes = some (before.length + 1, .success))

/-- 43_validator.md R188, R189: discovery inserts exactly the GUID of an accepting `VAL.GUID`; a GUID found twice counts
once, and every drop leaves the set as it was; its result holds exactly the GUIDs of the accepting passes, whatever the
order of arrival. -/
def Obligations.DiscoveryCollectsASet : Prop :=
  (∀ (o : Outputs) (found : Finset (BitVec 128)),
    (∀ g, o.verdict = some .accept → o.guid = some g →
      (∀ x, x ∈ collectGuid o found ↔ x = g ∨ x ∈ found) ∧
      (g ∈ found → collectGuid o found = found) ∧
      (g ∉ found → (collectGuid o found).card = found.card + 1)) ∧
    (o.verdict ≠ some .accept → collectGuid o found = found)) ∧
  (∀ (os : List Outputs) (g : BitVec 128),
    g ∈ discovered os ↔ ∃ o ∈ os, o.verdict = some .accept ∧ o.guid = some g) ∧
  ∀ os os' : List Outputs, os.Perm os' → discovered os = discovered os'

/-- 30_encoding.md R84: `NOP` completes and changes nothing. -/
def Obligations.NopResult : Prop :=
  (∀ p : Ports, p.op = 0x0 → decodeOp p = .nop) ∧ ∀ s : State, exec .nop s = .next s

/-- 30_encoding.md R83: the reserved operation codes are refused in every state (log 6). -/
def Obligations.ReservedCodesAreRefused : Prop :=
  ∀ (s : State) (p : Ports), (p.op = 0xC ∨ p.op = 0xD ∨ p.op = 0xE) → exec (decodeOp p) s = .refused .reservedOp

/-- 70_reset_and_hazards.md R230, 10_state.md R37: `RESET` completes in every state and leaves the values the spec gives;
about the elements the spec calls unspecified nothing is said. The model's own fields other than the draw counter
stay. -/
def Obligations.ResetResult : Prop :=
  ∀ s : State, ∃ t, exec .reset s = .next t ∧
    t.mode = .normal ∧ t.len = 0 ∧ t.acc = 0xFFFF ∧ t.encBusy = false ∧ t.encPos = 0 ∧ t.decActive = false ∧
    t.ovf = false ∧ t.rspValid = false ∧ t.params = s.params ∧ t.input = s.input ∧ t.out = s.out

/-- 10_state.md R37: the machine after reset has the values the spec gives. -/
def Obligations.ResetStateValues : Prop :=
  State.reset.mode = .normal ∧ State.reset.len = 0 ∧ State.reset.acc = 0xFFFF ∧ State.reset.encBusy = false ∧
  State.reset.encPos = 0 ∧ State.reset.decActive = false ∧ State.reset.ovf = false ∧ State.reset.rspValid = false

/-- 30_encoding.md R83, 10_state.md R34: a refused operation changes no state element, drives no output and raises
`refused`; an accepted one does not raise it. `drive` is the model's way to say so beside `step`
(log 6, the idle outputs log 8). -/
def Obligations.RefusedOperationChangesNothing : Prop :=
  ∀ s : State,
    (∀ r, step s = .refused r →
      drive s = .next ({ s with input := s.input.tail, out := Outputs.idle }, true)) ∧
    (∀ t, step s = .next t → drive s = .next (t, false))

/-- 10_state.md R33, with the eight codes of 60_exceptions.md R200: STATUS, bit by bit. -/
def Obligations.StatusBits : Prop :=
  ∀ s : State,
    (status s).getLsbD 0 = s.encBusy ∧ (status s).getLsbD 1 = s.decActive ∧ (status s).getLsbD 2 = s.rspValid ∧
    (status s).getLsbD 3 = decide (s.mode = .afterMarker) ∧ (status s).getLsbD 4 = s.ovf ∧
    (s.rspState = .success → (status s).extractLsb' 5 3 = 0b000) ∧
    (s.rspState = .timeout → (status s).extractLsb' 5 3 = 0b001) ∧
    (s.rspState = .formatError → (status s).extractLsb' 5 3 = 0b010) ∧
    (s.rspState = .checksumError → (status s).extractLsb' 5 3 = 0b011) ∧
    (s.rspState = .unexpectedPacketType → (status s).extractLsb' 5 3 = 0b100) ∧
    (s.rspState = .unsolicitedResponse → (status s).extractLsb' 5 3 = 0b101) ∧
    (s.rspState = .transportError → (status s).extractLsb' 5 3 = 0b110) ∧
    (s.rspState = .networkError → (status s).extractLsb' 5 3 = 0b111)

/-- 10_state.md R36, R22, R23: the accumulator changes only by a CRC operation, the encoder's elements only by an encoder
operation, the decoder's only by a decoder operation, and all of them by `RESET`; the parameters and the ports to come
by no instruction. -/
def Obligations.StateHasOneOwner : Prop :=
  ∀ (i : Instr) (s t : State), exec i s = .next t →
    (owner i ≠ .crc → owner i ≠ .everybody → t.acc = s.acc) ∧
    (owner i ≠ .encoder → owner i ≠ .everybody → SameEncoder s t) ∧
    (owner i ≠ .decoder → owner i ≠ .everybody → SameDecoder s t) ∧
    t.params = s.params ∧ t.input = s.input

/-- 10_state.md R36: operations of two different owners give the same results in either order: the same state but for which
of them the output ports show last, and, where each begins with the same ports as a step does, each drives the same
ports as when it comes first. -/
def Obligations.OwnersInterleaveFreely : Prop :=
  ∀ (i j : Instr) (s u v : State),
    (owner i = .crc ∨ owner i = .encoder ∨ owner i = .decoder) →
    (owner j = .crc ∨ owner j = .encoder ∨ owner j = .decoder) → owner i ≠ owner j →
    exec i s = .next u → exec j u = .next v →
    ∃ u' v' w w', exec j s = .next u' ∧ exec i u' = .next v' ∧ { v' with out := v.out } = v ∧
      exec j { u with out := s.out } = .next w ∧ w.out = u'.out ∧
      exec i { u' with out := s.out } = .next w' ∧ w'.out = u.out

/-- 00_scope.md R9, 10_state.md R34: a step takes the presented ports, with the outputs idle, and runs the decoded host
operation, or, for a `DEC.STEP` with a byte in an active pass before the deadline, the wire symbol the byte is; with no
operation presented the block waits. The list of presented ports and the wait are the model's (log 7), the symbol in
place of its `DEC.STEP` too (log 12), the idle outputs at the beginning of a step as well (log 8). -/
def Obligations.StepRunsDecodedInstruction : Prop :=
  ∀ s : State,
    (s.input = [] → step s = .next { s with out := Outputs.idle }) ∧
    ∀ (p : Ports) (rest : List Ports), s.input = p :: rest →
      (∀ elapsed b, decodeOp p = .decStep elapsed .byte b → s.decActive = true → elapsed.toNat ≤ s.tmo.toNat →
        step s = exec (decodeSymbol s.mode b) { s with input := rest, out := Outputs.idle }) ∧
      ((∀ elapsed b, decodeOp p = .decStep elapsed .byte b →
          s.decActive = false ∨ s.tmo.toNat < elapsed.toNat) →
        step s = exec (decodeOp p) { s with input := rest, out := Outputs.idle })

/-- The invariant `Sound` holds of the machine after reset (10_state.md R37; the parameters' constraint of 00_scope.md R7).
It rests on the ranges the model gives its free values (log 1, log 2), not on a value of any of them. -/
def Obligations.ResetIsSound : Prop := Sound State.reset

/-- 10_state.md R20 to R29, 20_memory.md R50, 60_exceptions.md R201, R206: every step keeps the invariant. -/
def Obligations.StepKeepsSound : Prop :=
  ∀ s t : State, Sound s → step s = .next t → Sound t

/-- 42_frame_decoder.md R162, 41_frame_encoder.md R122: from a sound state the only fault is an `ENC.START` whose length
covers a request byte never loaded (log 5, log 13). -/
def Obligations.SoundStatesFaultOnlyOnUnwrittenRequest : Prop :=
  ∀ (s : State) (f : Fault), Sound s → step s = .fault f →
    f = .unwrittenReqData ∧ ∃ p rest, s.input = p :: rest ∧ p.op = 0x5 ∧
      ∃ i, i < p.argDlen ∧ s.reqData.read i = none

/-- 43_validator.md R187: the number of each verdict on the output `verdict[2:0]`. -/
def Obligations.VerdictCodes : Prop :=
  Verdict.accept.code = 0 ∧ Verdict.dropChecksum.code = 1 ∧ Verdict.dropLength.code = 2 ∧
  Verdict.dropResult.code = 3 ∧ Verdict.dropState.code = 4

/-- 43_validator.md R188, R190, R191, 00_scope.md R7: the requests of the management sequences, byte by byte, and what holds
of the three reserved commands, which of the admissible ones they are being open (log 16). That the info query has no
data and the assignment goes to address 0 is the spec's own reading (log 17). -/
def Obligations.ManagementRequests : Prop :=
  (∀ seed : BitVec 32, discoverRequest seed = ⟨0x0000, Config.cmdDiscover,
    [seed.extractLsb' 24 8, seed.extractLsb' 16 8, seed.extractLsb' 8 8, seed.extractLsb' 0 8]⟩) ∧
  (∀ addr : Half, infoRequest addr = ⟨addr, Config.cmdInfo, []⟩) ∧
  (∀ (guid : List Byte) (target : Half), assignRequest guid target = ⟨0x0000, Config.cmdAssign,
    guid ++ [target.extractLsb' 8 8, target.extractLsb' 0 8]⟩) ∧
  250 ≤ Config.cmdDiscover.toNat ∧ 250 ≤ Config.cmdInfo.toNat ∧ 250 ≤ Config.cmdAssign.toNat ∧
  Config.cmdDiscover ≠ Config.cmdInfo ∧ Config.cmdDiscover ≠ Config.cmdAssign ∧ Config.cmdInfo ≠ Config.cmdAssign
end

