-- ==== Sys2Proof/Laws/Crc.lean ====
section
/-! SUPPORT. The laws of the CRC function that the statements build on. -/

namespace Sys2Proof.Machine

theorem crcCompute_nil : crcCompute [] = Config.crcInit := rfl

theorem crcCompute_snoc (bs : List Byte) (b : Byte) : crcCompute (bs ++ [b]) = crcUpdate (crcCompute bs) b := by
  simp [crcCompute]

theorem crcCompute_append (as bs : List Byte) : crcCompute (as ++ bs) = bs.foldl crcUpdate (crcCompute as) := by
  simp [crcCompute]

theorem crcRounds_succ (n : Nat) (t : Half) : crcRounds (n + 1) t = crcRounds n (crcRound t) := rfl

end Sys2Proof.Machine
end

