-- ==== Sys2Proof/Laws/Memory.lean ====
section
/-! SUPPORT. The laws of the byte memories: read after write, the canonical form and the bound kept by every write, and
what reading a range means. -/

namespace Sys2Proof.Machine

@[simp] theorem Memory.read_nil (i : Nat) : Memory.read [] i = none := rfl

theorem Memory.read_cons (c : Host.Cell) (m : Memory) (i : Nat) :
    Memory.read (c :: m) i = if c.1 = i then some c.2 else Memory.read m i := rfl

/-- Read after write: the written byte at its index, every other byte as before. -/
theorem Memory.read_write (m : Memory) (i : Nat) (b : Byte) (j : Nat) :
    (m.write i b).read j = if j = i then some b else m.read j := by
  induction m with
  | nil => simp only [Memory.write, Memory.read_cons, Memory.read_nil, eq_comm]
  | cons c m ih =>
    by_cases h1 : i < c.1
    · simp only [Memory.write, h1, if_true, Memory.read_cons, eq_comm (a := i)]
    · by_cases h2 : i = c.1
      · have hw : Memory.write (c :: m) i b = (i, b) :: m := by simp [Memory.write, h2]
        rw [hw, Memory.read_cons, Memory.read_cons]
        by_cases hj : j = i
        · simp [hj]
        · have hic : c.1 ≠ j := by omega
          simp [hj, Ne.symm hj, hic]
      · simp only [Memory.write, h1, h2, if_false, Memory.read_cons, ih]
        by_cases hj : c.1 = j
        · have hji : j ≠ i := by omega
          simp [hj, hji]
        · simp [hj]

theorem Memory.mem_write {m : Memory} {i : Nat} {b : Byte} {c : Host.Cell} (h : c ∈ m.write i b) :
    c = (i, b) ∨ c ∈ m := by
  induction m with
  | nil => simpa [Memory.write] using h
  | cons d m ih =>
    simp only [Memory.write] at h
    split_ifs at h with h1 h2
    · simpa using h
    · rcases List.mem_cons.mp h with h | h
      · exact .inl h
      · exact .inr (List.mem_cons_of_mem _ h)
    · rcases List.mem_cons.mp h with h | h
      · exact .inr (h ▸ List.mem_cons_self)
      · exact (ih h).imp id (List.mem_cons_of_mem _)

/-- Every write keeps the canonical form. -/
theorem Memory.write_wf {m : Memory} (i : Nat) (b : Byte) (h : m.wf) : (m.write i b).wf := by
  induction m with
  | nil => simp [Memory.write, Memory.wf]
  | cons d m ih =>
    obtain ⟨hd, hm⟩ := List.pairwise_cons.mp h
    simp only [Memory.write]
    split_ifs with h1 h2
    · refine List.pairwise_cons.mpr ⟨fun c hc => ?_, h⟩
      rcases List.mem_cons.mp hc with rfl | hc
      · exact h1
      · exact Nat.lt_trans h1 (hd c hc)
    · exact List.pairwise_cons.mpr ⟨fun c hc => h2 ▸ hd c hc, hm⟩
    · refine List.pairwise_cons.mpr ⟨fun c hc => ?_, ih hm⟩
      rcases Memory.mem_write hc with rfl | hc
      · show d.1 < i
        omega
      · exact hd c hc

/-- A drawn memory holds its indexes and no other. -/
theorem Memory.mem_drawn {draw start n : Nat} {c : Host.Cell} (h : c ∈ Memory.drawn draw start n) :
    start ≤ c.1 ∧ c.1 < start + n := by
  induction n generalizing start with
  | zero => cases h
  | succ n ih =>
    rcases List.mem_cons.mp h with rfl | h
    · exact ⟨Nat.le_refl _, Nat.lt_add_of_pos_right (Nat.succ_pos n)⟩
    · have := ih h
      omega

/-- Each byte of a drawn memory is the free value of its index. -/
theorem Memory.read_drawn {draw start n i : Nat} (hs : start ≤ i) (hi : i < start + n) :
    (Memory.drawn draw start n).read i = some (Config.freeBuf draw i) := by
  induction n generalizing start with
  | zero => omega
  | succ n ih =>
    rw [Memory.drawn, Memory.read_cons]
    split_ifs with h
    · exact congrArg _ (congrArg _ h)
    · have : start ≠ i := h
      exact ih (by omega) (by omega)

theorem Memory.drawn_wf (draw start n : Nat) : (Memory.drawn draw start n).wf := by
  induction n generalizing start with
  | zero => exact List.Pairwise.nil
  | succ n ih => exact List.pairwise_cons.mpr ⟨fun c hc => (Memory.mem_drawn hc).1, ih (start + 1)⟩

theorem Memory.drawn_within (draw n : Nat) : (Memory.drawn draw 0 n).within n := fun c hc => by
  have := (Memory.mem_drawn hc).2
  omega

theorem Memory.drawn_covers (draw n : Nat) : (Memory.drawn draw 0 n).covers n := fun i hi => by
  rw [Memory.read_drawn (Nat.zero_le i) (by omega)]
  rfl

/-- The memories of `State.reset` are in canonical form. -/
theorem reset_memories_wf : State.reset.buf.wf ∧ State.reset.reqData.wf :=
  ⟨Memory.drawn_wf _ _ _, List.Pairwise.nil⟩

theorem Memory.write_within {m : Memory} {i n : Nat} (b : Byte) (hi : i < n) (h : m.within n) :
    (m.write i b).within n := by
  intro c hc
  rcases Memory.mem_write hc with rfl | hc
  · exact hi
  · exact h c hc

theorem Memory.covers_write {m : Memory} {i n : Nat} (b : Byte) (h : m.covers n) :
    (m.write i b).covers n := by
  intro j hj
  rw [Memory.read_write m i b j]
  split_ifs
  · rfl
  · exact h j hj

theorem Memory.covers_succ {m : Memory} {n : Nat} (b : Byte) (h : m.covers n) :
    (m.write n b).covers (n + 1) := by
  intro j hj
  rw [Memory.read_write m n b j]
  split_ifs with hjn
  · rfl
  · exact h j (by omega)

/-- A range reads as the bytes of its indexes. -/
theorem Memory.readRange_eq_some {m : Memory} {start n : Nat} {bytes : List Byte} :
    m.readRange start n = some bytes ↔
      bytes.length = n ∧ ∀ k, k < n → m.read (start + k) = bytes[k]? := by
  induction n generalizing start bytes with
  | zero =>
    simp only [Memory.readRange, Option.some.injEq, Nat.not_lt_zero, false_imp_iff, implies_true, and_true,
      List.length_eq_zero_iff]
    exact eq_comm
  | succ n ih =>
    constructor
    · intro h
      simp only [Memory.readRange] at h
      split at h
      · rename_i b bs hb hbs
        obtain ⟨hl, hr⟩ := ih.mp hbs
        cases h
        refine ⟨by simp [hl], fun k hk => ?_⟩
        cases k with
        | zero => simpa using hb
        | succ k => simpa [Nat.add_assoc, Nat.add_comm 1] using hr k (by omega)
      · cases h
    · rintro ⟨hl, hr⟩
      cases bytes with
      | nil => simp at hl
      | cons b bs =>
        have h0 : m.read start = some b := by simpa using hr 0 (by omega)
        have h1 : m.readRange (start + 1) n = some bs := by
          refine ih.mpr ⟨by simpa using hl, fun k hk => ?_⟩
          simpa [Nat.add_assoc, Nat.add_comm 1] using hr (k + 1) (by omega)
        simp [Memory.readRange, h0, h1]

theorem Memory.readRange_length {m : Memory} {start n : Nat} {bytes : List Byte}
    (h : m.readRange start n = some bytes) : bytes.length = n :=
  (Memory.readRange_eq_some.mp h).1

/-- A range whose bytes are all there can be read. -/
theorem Memory.readRange_of_written {m : Memory} {start n : Nat} (h : ∀ k, k < n → (m.read (start + k)).isSome) :
    ∃ bytes, m.readRange start n = some bytes := by
  induction n generalizing start with
  | zero => exact ⟨[], rfl⟩
  | succ n ih =>
    obtain ⟨b, hb⟩ := Option.isSome_iff_exists.mp (h 0 (by omega))
    obtain ⟨bs, hbs⟩ := ih (start := start + 1) fun k hk => by
      have := h (k + 1) (by omega)
      rwa [show start + 1 + k = start + (k + 1) by omega]
    rw [Nat.add_zero] at hb
    exact ⟨b :: bs, by simp [Memory.readRange, hb, hbs]⟩

/-- Two memories that agree on a range read the same there. -/
theorem Memory.readRange_congr {m m' : Memory} {start n : Nat}
    (h : ∀ k, k < n → m.read (start + k) = m'.read (start + k)) :
    m.readRange start n = m'.readRange start n := by
  induction n generalizing start with
  | zero => rfl
  | succ n ih =>
    have h0 : m.read start = m'.read start := by simpa using h 0 (by omega)
    have h1 : m.readRange (start + 1) n = m'.readRange (start + 1) n := ih fun k hk => by
      have := h (k + 1) (by omega)
      rwa [show start + (k + 1) = start + 1 + k by omega] at this
    simp [Memory.readRange, h0, h1]

end Sys2Proof.Machine
end

