-- ==== Sys2Proof/Laws/State.lean ====
section
/-! SUPPORT. What each named update does to each field of the state: one lemma per field per update. -/

namespace Sys2Proof.Machine

@[simp] theorem setMode_params (m : Mode) (s : State) : (setMode m s).params = s.params := rfl
@[simp] theorem setMode_acc (m : Mode) (s : State) : (setMode m s).acc = s.acc := rfl
@[simp] theorem setMode_reqAddr (m : Mode) (s : State) : (setMode m s).reqAddr = s.reqAddr := rfl
@[simp] theorem setMode_reqCmd (m : Mode) (s : State) : (setMode m s).reqCmd = s.reqCmd := rfl
@[simp] theorem setMode_reqDlen (m : Mode) (s : State) : (setMode m s).reqDlen = s.reqDlen := rfl
@[simp] theorem setMode_reqData (m : Mode) (s : State) : (setMode m s).reqData = s.reqData := rfl
@[simp] theorem setMode_encBusy (m : Mode) (s : State) : (setMode m s).encBusy = s.encBusy := rfl
@[simp] theorem setMode_encPos (m : Mode) (s : State) : (setMode m s).encPos = s.encPos := rfl
@[simp] theorem setMode_ecrc (m : Mode) (s : State) : (setMode m s).ecrc = s.ecrc := rfl
@[simp] theorem setMode_decActive (m : Mode) (s : State) : (setMode m s).decActive = s.decActive := rfl
@[simp] theorem setMode_mode (m : Mode) (s : State) : (setMode m s).mode = m := rfl
@[simp] theorem setMode_buf (m : Mode) (s : State) : (setMode m s).buf = s.buf := rfl
@[simp] theorem setMode_len (m : Mode) (s : State) : (setMode m s).len = s.len := rfl
@[simp] theorem setMode_tmo (m : Mode) (s : State) : (setMode m s).tmo = s.tmo := rfl
@[simp] theorem setMode_ovf (m : Mode) (s : State) : (setMode m s).ovf = s.ovf := rfl
@[simp] theorem setMode_rspValid (m : Mode) (s : State) : (setMode m s).rspValid = s.rspValid := rfl
@[simp] theorem setMode_rspState (m : Mode) (s : State) : (setMode m s).rspState = s.rspState := rfl
@[simp] theorem setMode_rspAddr (m : Mode) (s : State) : (setMode m s).rspAddr = s.rspAddr := rfl
@[simp] theorem setMode_rspResult (m : Mode) (s : State) : (setMode m s).rspResult = s.rspResult := rfl
@[simp] theorem setMode_rspDlen (m : Mode) (s : State) : (setMode m s).rspDlen = s.rspDlen := rfl
@[simp] theorem setMode_out (m : Mode) (s : State) : (setMode m s).out = s.out := rfl
@[simp] theorem setMode_input (m : Mode) (s : State) : (setMode m s).input = s.input := rfl
@[simp] theorem setMode_draws (m : Mode) (s : State) : (setMode m s).draws = s.draws := rfl

@[simp] theorem bufAppend_params (b : Byte) (s : State) : (bufAppend b s).params = s.params := rfl
@[simp] theorem bufAppend_acc (b : Byte) (s : State) : (bufAppend b s).acc = s.acc := rfl
@[simp] theorem bufAppend_reqAddr (b : Byte) (s : State) : (bufAppend b s).reqAddr = s.reqAddr := rfl
@[simp] theorem bufAppend_reqCmd (b : Byte) (s : State) : (bufAppend b s).reqCmd = s.reqCmd := rfl
@[simp] theorem bufAppend_reqDlen (b : Byte) (s : State) : (bufAppend b s).reqDlen = s.reqDlen := rfl
@[simp] theorem bufAppend_reqData (b : Byte) (s : State) : (bufAppend b s).reqData = s.reqData := rfl
@[simp] theorem bufAppend_encBusy (b : Byte) (s : State) : (bufAppend b s).encBusy = s.encBusy := rfl
@[simp] theorem bufAppend_encPos (b : Byte) (s : State) : (bufAppend b s).encPos = s.encPos := rfl
@[simp] theorem bufAppend_ecrc (b : Byte) (s : State) : (bufAppend b s).ecrc = s.ecrc := rfl
@[simp] theorem bufAppend_decActive (b : Byte) (s : State) : (bufAppend b s).decActive = s.decActive := rfl
@[simp] theorem bufAppend_mode (b : Byte) (s : State) : (bufAppend b s).mode = s.mode := rfl
@[simp] theorem bufAppend_buf (b : Byte) (s : State) : (bufAppend b s).buf = s.buf.write (if bufFull s then 0 else s.len) b := rfl
@[simp] theorem bufAppend_len (b : Byte) (s : State) : (bufAppend b s).len = (if bufFull s then 0 else s.len) + 1 := rfl
@[simp] theorem bufAppend_tmo (b : Byte) (s : State) : (bufAppend b s).tmo = s.tmo := rfl
@[simp] theorem bufAppend_ovf (b : Byte) (s : State) : (bufAppend b s).ovf = (s.ovf || bufFull s) := rfl
@[simp] theorem bufAppend_rspValid (b : Byte) (s : State) : (bufAppend b s).rspValid = s.rspValid := rfl
@[simp] theorem bufAppend_rspState (b : Byte) (s : State) : (bufAppend b s).rspState = s.rspState := rfl
@[simp] theorem bufAppend_rspAddr (b : Byte) (s : State) : (bufAppend b s).rspAddr = s.rspAddr := rfl
@[simp] theorem bufAppend_rspResult (b : Byte) (s : State) : (bufAppend b s).rspResult = s.rspResult := rfl
@[simp] theorem bufAppend_rspDlen (b : Byte) (s : State) : (bufAppend b s).rspDlen = s.rspDlen := rfl
@[simp] theorem bufAppend_out (b : Byte) (s : State) : (bufAppend b s).out = s.out := rfl
@[simp] theorem bufAppend_input (b : Byte) (s : State) : (bufAppend b s).input = s.input := rfl
@[simp] theorem bufAppend_draws (b : Byte) (s : State) : (bufAppend b s).draws = s.draws := rfl

@[simp] theorem finish_params (st : ResponseState) (s : State) : (finish st s).params = s.params := rfl
@[simp] theorem finish_acc (st : ResponseState) (s : State) : (finish st s).acc = s.acc := rfl
@[simp] theorem finish_reqAddr (st : ResponseState) (s : State) : (finish st s).reqAddr = s.reqAddr := rfl
@[simp] theorem finish_reqCmd (st : ResponseState) (s : State) : (finish st s).reqCmd = s.reqCmd := rfl
@[simp] theorem finish_reqDlen (st : ResponseState) (s : State) : (finish st s).reqDlen = s.reqDlen := rfl
@[simp] theorem finish_reqData (st : ResponseState) (s : State) : (finish st s).reqData = s.reqData := rfl
@[simp] theorem finish_encBusy (st : ResponseState) (s : State) : (finish st s).encBusy = s.encBusy := rfl
@[simp] theorem finish_encPos (st : ResponseState) (s : State) : (finish st s).encPos = s.encPos := rfl
@[simp] theorem finish_ecrc (st : ResponseState) (s : State) : (finish st s).ecrc = s.ecrc := rfl
@[simp] theorem finish_decActive (st : ResponseState) (s : State) : (finish st s).decActive = false := rfl
@[simp] theorem finish_mode (st : ResponseState) (s : State) : (finish st s).mode = s.mode := rfl
@[simp] theorem finish_buf (st : ResponseState) (s : State) : (finish st s).buf = s.buf := rfl
@[simp] theorem finish_len (st : ResponseState) (s : State) : (finish st s).len = s.len := rfl
@[simp] theorem finish_tmo (st : ResponseState) (s : State) : (finish st s).tmo = s.tmo := rfl
@[simp] theorem finish_ovf (st : ResponseState) (s : State) : (finish st s).ovf = s.ovf := rfl
@[simp] theorem finish_rspValid (st : ResponseState) (s : State) : (finish st s).rspValid = true := rfl
@[simp] theorem finish_rspState (st : ResponseState) (s : State) : (finish st s).rspState = st := rfl
@[simp] theorem finish_rspAddr (st : ResponseState) (s : State) : (finish st s).rspAddr = if st = .success then s.rspAddr else Config.freeRspAddr s.draws := rfl
@[simp] theorem finish_rspResult (st : ResponseState) (s : State) : (finish st s).rspResult = if st = .success then s.rspResult else Config.freeRspResult s.draws := rfl
@[simp] theorem finish_rspDlen (st : ResponseState) (s : State) : (finish st s).rspDlen = if st = .success then s.rspDlen else Config.freeRspDlen s.draws % (s.params.cap - 4) := rfl
@[simp] theorem finish_out (st : ResponseState) (s : State) : (finish st s).out = s.out := rfl
@[simp] theorem finish_input (st : ResponseState) (s : State) : (finish st s).input = s.input := rfl
@[simp] theorem finish_draws (st : ResponseState) (s : State) : (finish st s).draws = if st = .success then s.draws else s.draws + 1 := rfl

@[simp] theorem latchResponse_params (f : FrameFields) (s : State) : (latchResponse f s).params = s.params := rfl
@[simp] theorem latchResponse_acc (f : FrameFields) (s : State) : (latchResponse f s).acc = s.acc := rfl
@[simp] theorem latchResponse_reqAddr (f : FrameFields) (s : State) : (latchResponse f s).reqAddr = s.reqAddr := rfl
@[simp] theorem latchResponse_reqCmd (f : FrameFields) (s : State) : (latchResponse f s).reqCmd = s.reqCmd := rfl
@[simp] theorem latchResponse_reqDlen (f : FrameFields) (s : State) : (latchResponse f s).reqDlen = s.reqDlen := rfl
@[simp] theorem latchResponse_reqData (f : FrameFields) (s : State) : (latchResponse f s).reqData = s.reqData := rfl
@[simp] theorem latchResponse_encBusy (f : FrameFields) (s : State) : (latchResponse f s).encBusy = s.encBusy := rfl
@[simp] theorem latchResponse_encPos (f : FrameFields) (s : State) : (latchResponse f s).encPos = s.encPos := rfl
@[simp] theorem latchResponse_ecrc (f : FrameFields) (s : State) : (latchResponse f s).ecrc = s.ecrc := rfl
@[simp] theorem latchResponse_decActive (f : FrameFields) (s : State) : (latchResponse f s).decActive = s.decActive := rfl
@[simp] theorem latchResponse_mode (f : FrameFields) (s : State) : (latchResponse f s).mode = s.mode := rfl
@[simp] theorem latchResponse_buf (f : FrameFields) (s : State) : (latchResponse f s).buf = s.buf := rfl
@[simp] theorem latchResponse_len (f : FrameFields) (s : State) : (latchResponse f s).len = s.len := rfl
@[simp] theorem latchResponse_tmo (f : FrameFields) (s : State) : (latchResponse f s).tmo = s.tmo := rfl
@[simp] theorem latchResponse_ovf (f : FrameFields) (s : State) : (latchResponse f s).ovf = s.ovf := rfl
@[simp] theorem latchResponse_rspValid (f : FrameFields) (s : State) : (latchResponse f s).rspValid = s.rspValid := rfl
@[simp] theorem latchResponse_rspState (f : FrameFields) (s : State) : (latchResponse f s).rspState = s.rspState := rfl
@[simp] theorem latchResponse_rspAddr (f : FrameFields) (s : State) : (latchResponse f s).rspAddr = f.fromAddress := rfl
@[simp] theorem latchResponse_rspResult (f : FrameFields) (s : State) : (latchResponse f s).rspResult = f.result := rfl
@[simp] theorem latchResponse_rspDlen (f : FrameFields) (s : State) : (latchResponse f s).rspDlen = s.len - 5 := rfl
@[simp] theorem latchResponse_out (f : FrameFields) (s : State) : (latchResponse f s).out = s.out := rfl
@[simp] theorem latchResponse_input (f : FrameFields) (s : State) : (latchResponse f s).input = s.input := rfl
@[simp] theorem latchResponse_draws (f : FrameFields) (s : State) : (latchResponse f s).draws = s.draws := rfl

@[simp] theorem armPass_params (t : Time) (s : State) : (armPass t s).params = s.params := rfl
@[simp] theorem armPass_acc (t : Time) (s : State) : (armPass t s).acc = s.acc := rfl
@[simp] theorem armPass_reqAddr (t : Time) (s : State) : (armPass t s).reqAddr = s.reqAddr := rfl
@[simp] theorem armPass_reqCmd (t : Time) (s : State) : (armPass t s).reqCmd = s.reqCmd := rfl
@[simp] theorem armPass_reqDlen (t : Time) (s : State) : (armPass t s).reqDlen = s.reqDlen := rfl
@[simp] theorem armPass_reqData (t : Time) (s : State) : (armPass t s).reqData = s.reqData := rfl
@[simp] theorem armPass_encBusy (t : Time) (s : State) : (armPass t s).encBusy = s.encBusy := rfl
@[simp] theorem armPass_encPos (t : Time) (s : State) : (armPass t s).encPos = s.encPos := rfl
@[simp] theorem armPass_ecrc (t : Time) (s : State) : (armPass t s).ecrc = s.ecrc := rfl
@[simp] theorem armPass_decActive (t : Time) (s : State) : (armPass t s).decActive = true := rfl
@[simp] theorem armPass_mode (t : Time) (s : State) : (armPass t s).mode = .normal := rfl
@[simp] theorem armPass_buf (t : Time) (s : State) : (armPass t s).buf = s.buf := rfl
@[simp] theorem armPass_len (t : Time) (s : State) : (armPass t s).len = 0 := rfl
@[simp] theorem armPass_tmo (t : Time) (s : State) : (armPass t s).tmo = t := rfl
@[simp] theorem armPass_ovf (t : Time) (s : State) : (armPass t s).ovf = false := rfl
@[simp] theorem armPass_rspValid (t : Time) (s : State) : (armPass t s).rspValid = false := rfl
@[simp] theorem armPass_rspState (t : Time) (s : State) : (armPass t s).rspState = s.rspState := rfl
@[simp] theorem armPass_rspAddr (t : Time) (s : State) : (armPass t s).rspAddr = s.rspAddr := rfl
@[simp] theorem armPass_rspResult (t : Time) (s : State) : (armPass t s).rspResult = s.rspResult := rfl
@[simp] theorem armPass_rspDlen (t : Time) (s : State) : (armPass t s).rspDlen = s.rspDlen := rfl
@[simp] theorem armPass_out (t : Time) (s : State) : (armPass t s).out = s.out := rfl
@[simp] theorem armPass_input (t : Time) (s : State) : (armPass t s).input = s.input := rfl
@[simp] theorem armPass_draws (t : Time) (s : State) : (armPass t s).draws = s.draws := rfl

@[simp] theorem resetBlock_params (s : State) : (resetBlock s).params = s.params := rfl
@[simp] theorem resetBlock_acc (s : State) : (resetBlock s).acc = Config.crcInit := rfl
@[simp] theorem resetBlock_reqAddr (s : State) : (resetBlock s).reqAddr = Config.freeReqAddr s.draws := rfl
@[simp] theorem resetBlock_reqCmd (s : State) : (resetBlock s).reqCmd = Config.freeReqCmd s.draws := rfl
@[simp] theorem resetBlock_reqDlen (s : State) : (resetBlock s).reqDlen = Config.freeReqDlen s.draws % (s.params.maxDlen + 1) := rfl
@[simp] theorem resetBlock_reqData (s : State) : (resetBlock s).reqData = [] := rfl
@[simp] theorem resetBlock_encBusy (s : State) : (resetBlock s).encBusy = false := rfl
@[simp] theorem resetBlock_encPos (s : State) : (resetBlock s).encPos = 0 := rfl
@[simp] theorem resetBlock_ecrc (s : State) : (resetBlock s).ecrc = Config.freeEcrc s.draws := rfl
@[simp] theorem resetBlock_decActive (s : State) : (resetBlock s).decActive = false := rfl
@[simp] theorem resetBlock_mode (s : State) : (resetBlock s).mode = .normal := rfl
@[simp] theorem resetBlock_buf (s : State) : (resetBlock s).buf = Memory.drawn s.draws 0 s.params.cap := rfl
@[simp] theorem resetBlock_len (s : State) : (resetBlock s).len = 0 := rfl
@[simp] theorem resetBlock_tmo (s : State) : (resetBlock s).tmo = Config.freeTmo s.draws := rfl
@[simp] theorem resetBlock_ovf (s : State) : (resetBlock s).ovf = false := rfl
@[simp] theorem resetBlock_rspValid (s : State) : (resetBlock s).rspValid = false := rfl
@[simp] theorem resetBlock_rspState (s : State) : (resetBlock s).rspState = ResponseState.ofCode (Config.freeRspCode s.draws) := rfl
@[simp] theorem resetBlock_rspAddr (s : State) : (resetBlock s).rspAddr = Config.freeRspAddr s.draws := rfl
@[simp] theorem resetBlock_rspResult (s : State) : (resetBlock s).rspResult = Config.freeRspResult s.draws := rfl
@[simp] theorem resetBlock_rspDlen (s : State) : (resetBlock s).rspDlen = Config.freeRspDlen s.draws % (s.params.cap - 4) := rfl
@[simp] theorem resetBlock_out (s : State) : (resetBlock s).out = s.out := rfl
@[simp] theorem resetBlock_input (s : State) : (resetBlock s).input = s.input := rfl
@[simp] theorem resetBlock_draws (s : State) : (resetBlock s).draws = s.draws + 1 := rfl

@[simp] theorem drivePorts_params (o : Outputs) (s : State) : (drivePorts o s).params = s.params := rfl
@[simp] theorem drivePorts_acc (o : Outputs) (s : State) : (drivePorts o s).acc = s.acc := rfl
@[simp] theorem drivePorts_reqAddr (o : Outputs) (s : State) : (drivePorts o s).reqAddr = s.reqAddr := rfl
@[simp] theorem drivePorts_reqCmd (o : Outputs) (s : State) : (drivePorts o s).reqCmd = s.reqCmd := rfl
@[simp] theorem drivePorts_reqDlen (o : Outputs) (s : State) : (drivePorts o s).reqDlen = s.reqDlen := rfl
@[simp] theorem drivePorts_reqData (o : Outputs) (s : State) : (drivePorts o s).reqData = s.reqData := rfl
@[simp] theorem drivePorts_encBusy (o : Outputs) (s : State) : (drivePorts o s).encBusy = s.encBusy := rfl
@[simp] theorem drivePorts_encPos (o : Outputs) (s : State) : (drivePorts o s).encPos = s.encPos := rfl
@[simp] theorem drivePorts_ecrc (o : Outputs) (s : State) : (drivePorts o s).ecrc = s.ecrc := rfl
@[simp] theorem drivePorts_decActive (o : Outputs) (s : State) : (drivePorts o s).decActive = s.decActive := rfl
@[simp] theorem drivePorts_mode (o : Outputs) (s : State) : (drivePorts o s).mode = s.mode := rfl
@[simp] theorem drivePorts_buf (o : Outputs) (s : State) : (drivePorts o s).buf = s.buf := rfl
@[simp] theorem drivePorts_len (o : Outputs) (s : State) : (drivePorts o s).len = s.len := rfl
@[simp] theorem drivePorts_tmo (o : Outputs) (s : State) : (drivePorts o s).tmo = s.tmo := rfl
@[simp] theorem drivePorts_ovf (o : Outputs) (s : State) : (drivePorts o s).ovf = s.ovf := rfl
@[simp] theorem drivePorts_rspValid (o : Outputs) (s : State) : (drivePorts o s).rspValid = s.rspValid := rfl
@[simp] theorem drivePorts_rspState (o : Outputs) (s : State) : (drivePorts o s).rspState = s.rspState := rfl
@[simp] theorem drivePorts_rspAddr (o : Outputs) (s : State) : (drivePorts o s).rspAddr = s.rspAddr := rfl
@[simp] theorem drivePorts_rspResult (o : Outputs) (s : State) : (drivePorts o s).rspResult = s.rspResult := rfl
@[simp] theorem drivePorts_rspDlen (o : Outputs) (s : State) : (drivePorts o s).rspDlen = s.rspDlen := rfl
@[simp] theorem drivePorts_out (o : Outputs) (s : State) : (drivePorts o s).out = o := rfl
@[simp] theorem drivePorts_input (o : Outputs) (s : State) : (drivePorts o s).input = s.input := rfl
@[simp] theorem drivePorts_draws (o : Outputs) (s : State) : (drivePorts o s).draws = s.draws := rfl

@[simp] theorem beginStep_params (rest : List Ports) (s : State) : (beginStep rest s).params = s.params := rfl
@[simp] theorem beginStep_acc (rest : List Ports) (s : State) : (beginStep rest s).acc = s.acc := rfl
@[simp] theorem beginStep_reqAddr (rest : List Ports) (s : State) : (beginStep rest s).reqAddr = s.reqAddr := rfl
@[simp] theorem beginStep_reqCmd (rest : List Ports) (s : State) : (beginStep rest s).reqCmd = s.reqCmd := rfl
@[simp] theorem beginStep_reqDlen (rest : List Ports) (s : State) : (beginStep rest s).reqDlen = s.reqDlen := rfl
@[simp] theorem beginStep_reqData (rest : List Ports) (s : State) : (beginStep rest s).reqData = s.reqData := rfl
@[simp] theorem beginStep_encBusy (rest : List Ports) (s : State) : (beginStep rest s).encBusy = s.encBusy := rfl
@[simp] theorem beginStep_encPos (rest : List Ports) (s : State) : (beginStep rest s).encPos = s.encPos := rfl
@[simp] theorem beginStep_ecrc (rest : List Ports) (s : State) : (beginStep rest s).ecrc = s.ecrc := rfl
@[simp] theorem beginStep_decActive (rest : List Ports) (s : State) : (beginStep rest s).decActive = s.decActive := rfl
@[simp] theorem beginStep_mode (rest : List Ports) (s : State) : (beginStep rest s).mode = s.mode := rfl
@[simp] theorem beginStep_buf (rest : List Ports) (s : State) : (beginStep rest s).buf = s.buf := rfl
@[simp] theorem beginStep_len (rest : List Ports) (s : State) : (beginStep rest s).len = s.len := rfl
@[simp] theorem beginStep_tmo (rest : List Ports) (s : State) : (beginStep rest s).tmo = s.tmo := rfl
@[simp] theorem beginStep_ovf (rest : List Ports) (s : State) : (beginStep rest s).ovf = s.ovf := rfl
@[simp] theorem beginStep_rspValid (rest : List Ports) (s : State) : (beginStep rest s).rspValid = s.rspValid := rfl
@[simp] theorem beginStep_rspState (rest : List Ports) (s : State) : (beginStep rest s).rspState = s.rspState := rfl
@[simp] theorem beginStep_rspAddr (rest : List Ports) (s : State) : (beginStep rest s).rspAddr = s.rspAddr := rfl
@[simp] theorem beginStep_rspResult (rest : List Ports) (s : State) : (beginStep rest s).rspResult = s.rspResult := rfl
@[simp] theorem beginStep_rspDlen (rest : List Ports) (s : State) : (beginStep rest s).rspDlen = s.rspDlen := rfl
@[simp] theorem beginStep_out (rest : List Ports) (s : State) : (beginStep rest s).out = Outputs.idle := rfl
@[simp] theorem beginStep_input (rest : List Ports) (s : State) : (beginStep rest s).input = rest := rfl
@[simp] theorem beginStep_draws (rest : List Ports) (s : State) : (beginStep rest s).draws = s.draws := rfl

@[simp] theorem waitStep_params (s : State) : (waitStep s).params = s.params := rfl
@[simp] theorem waitStep_acc (s : State) : (waitStep s).acc = s.acc := rfl
@[simp] theorem waitStep_reqAddr (s : State) : (waitStep s).reqAddr = s.reqAddr := rfl
@[simp] theorem waitStep_reqCmd (s : State) : (waitStep s).reqCmd = s.reqCmd := rfl
@[simp] theorem waitStep_reqDlen (s : State) : (waitStep s).reqDlen = s.reqDlen := rfl
@[simp] theorem waitStep_reqData (s : State) : (waitStep s).reqData = s.reqData := rfl
@[simp] theorem waitStep_encBusy (s : State) : (waitStep s).encBusy = s.encBusy := rfl
@[simp] theorem waitStep_encPos (s : State) : (waitStep s).encPos = s.encPos := rfl
@[simp] theorem waitStep_ecrc (s : State) : (waitStep s).ecrc = s.ecrc := rfl
@[simp] theorem waitStep_decActive (s : State) : (waitStep s).decActive = s.decActive := rfl
@[simp] theorem waitStep_mode (s : State) : (waitStep s).mode = s.mode := rfl
@[simp] theorem waitStep_buf (s : State) : (waitStep s).buf = s.buf := rfl
@[simp] theorem waitStep_len (s : State) : (waitStep s).len = s.len := rfl
@[simp] theorem waitStep_tmo (s : State) : (waitStep s).tmo = s.tmo := rfl
@[simp] theorem waitStep_ovf (s : State) : (waitStep s).ovf = s.ovf := rfl
@[simp] theorem waitStep_rspValid (s : State) : (waitStep s).rspValid = s.rspValid := rfl
@[simp] theorem waitStep_rspState (s : State) : (waitStep s).rspState = s.rspState := rfl
@[simp] theorem waitStep_rspAddr (s : State) : (waitStep s).rspAddr = s.rspAddr := rfl
@[simp] theorem waitStep_rspResult (s : State) : (waitStep s).rspResult = s.rspResult := rfl
@[simp] theorem waitStep_rspDlen (s : State) : (waitStep s).rspDlen = s.rspDlen := rfl
@[simp] theorem waitStep_out (s : State) : (waitStep s).out = Outputs.idle := rfl
@[simp] theorem waitStep_input (s : State) : (waitStep s).input = s.input := rfl
@[simp] theorem waitStep_draws (s : State) : (waitStep s).draws = s.draws := rfl

end Sys2Proof.Machine
end

