-- ==== Sys2Proof/Laws/Ops.lean ====
section
/-! SUPPORT. What each shared operation can do, and how runs of steps compose, said once: the provers cite these lemmas
instead of unfolding the operation. -/

namespace Sys2Proof.Machine

@[simp] theorem bufFull_eq_true {s : State} : bufFull s = true ↔ s.len = s.params.cap := by
  simp [bufFull]

@[simp] theorem bufFull_eq_false {s : State} : bufFull s = false ↔ s.len ≠ s.params.cap := by
  simp [bufFull]

@[simp] theorem deadlinePassed_eq_true {e : Time} {s : State} :
    deadlinePassed e s = true ↔ s.tmo.toNat < e.toNat := by
  simp [deadlinePassed]

@[simp] theorem deadlinePassed_eq_false {e : Time} {s : State} :
    deadlinePassed e s = false ↔ e.toNat ≤ s.tmo.toNat := by
  simp [deadlinePassed]

/-- `BufAppend` below capacity. -/
theorem bufAppend_room {s : State} (b : Byte) (h : s.len ≠ s.params.cap) :
    bufAppend b s = { s with buf := s.buf.write s.len b, len := s.len + 1 } := by
  have : bufFull s = false := bufFull_eq_false.mpr h
  simp [bufAppend, this]

/-- `BufAppend` to a full buffer. -/
theorem bufAppend_full {s : State} (b : Byte) (h : s.len = s.params.cap) :
    bufAppend b s = { s with buf := s.buf.write 0 b, len := 1, ovf := true } := by
  have : bufFull s = true := bufFull_eq_true.mpr h
  simp [bufAppend, this]

/-- `BufAppend` keeps the length within the capacity. -/
theorem bufAppend_len_le {s : State} (b : Byte) (hc : 0 < s.params.cap) (h : s.len ≤ s.params.cap) :
    (bufAppend b s).len ≤ s.params.cap := by
  by_cases hf : s.len = s.params.cap
  · rw [bufAppend_full b hf]
    exact hc
  · rw [bufAppend_room b hf]
    show s.len + 1 ≤ s.params.cap
    omega

theorem inPass_active {k : State → Answer} {s : State} (h : s.decActive = true) : inPass k s = k s := by
  simp [inPass, h]

theorem inPass_inactive {k : State → Answer} {s : State} (h : s.decActive = false) :
    inPass k s = .refused .noPass := by
  simp [inPass, h]

/-- A wire symbol that gives a next state ran in an active pass. -/
theorem inPass_next {k : State → Answer} {s t : State} (h : inPass k s = .next t) :
    s.decActive = true ∧ k s = .next t := by
  by_cases ha : s.decActive = true
  · rw [inPass_active ha] at h
    exact ⟨ha, h⟩
  · rw [inPass_inactive (by simpa using ha)] at h
    cases h

theorem withResponse_valid {k : State → Answer} {s : State} (h : s.rspValid = true) : withResponse k s = k s := by
  simp [withResponse, h]

theorem withResponse_invalid {k : State → Answer} {s : State} (h : s.rspValid = false) :
    withResponse k s = .refused .noResponse := by
  simp [withResponse, h]

/-- A `VAL` operation that gives a next state judged a finished pass. -/
theorem withResponse_next {k : State → Answer} {s t : State} (h : withResponse k s = .next t) :
    s.rspValid = true ∧ k s = .next t := by
  by_cases hv : s.rspValid = true
  · rw [withResponse_valid hv] at h
    exact ⟨hv, h⟩
  · rw [withResponse_invalid (by simpa using hv)] at h
    cases h

/-- Ending a pass on success latches nothing of its own. -/
theorem finish_success (s : State) :
    finish .success s = { s with rspState := .success, rspValid := true, decActive := false } := by
  simp [finish]

/-- Ending a pass otherwise draws the response fields. -/
theorem finish_failure {st : ResponseState} (s : State) (h : st ≠ .success) :
    finish st s = { s with
      rspState := st
      rspValid := true
      decActive := false
      rspAddr := Config.freeRspAddr s.draws
      rspResult := Config.freeRspResult s.draws
      rspDlen := Config.freeRspDlen s.draws % (s.params.cap - 4)
      draws := s.draws + 1 } := by
  simp [finish, h]

/-- `RSP_DLEN` stays within its range when a pass ends. -/
theorem finish_rspDlen_le {st : ResponseState} {s : State} (hc : 5 ≤ s.params.cap)
    (h : s.rspDlen ≤ s.params.cap - 5) : (finish st s).rspDlen ≤ s.params.cap - 5 := by
  rw [finish_rspDlen]
  split_ifs
  · exact h
  · have := Nat.mod_lt (Config.freeRspDlen s.draws) (show 0 < s.params.cap - 4 by omega)
    omega

@[simp] theorem runSteps_zero (s : State) : runSteps 0 s = .next s := rfl

/-- What a run of one step more is, for any core. -/
theorem coreRun_succ (M : Host.Core) (k : Nat) (s : M.State) :
    M.run (k + 1) s = match M.step s with
      | .next t => M.run k t
      | .fault f => .fault f
      | .refused r => .refused r := by
  cases h : M.step s <;> simp only [Host.Core.run, h]

/-- A run whose first step gives a next state goes on from there. -/
theorem runSteps_succ {s t : State} (k : Nat) (h : step s = .next t) : runSteps (k + 1) s = runSteps k t := by
  have h' : Sys2Proof.core.step s = .next t := h
  exact (coreRun_succ Sys2Proof.core k s).trans (by rw [h']; rfl)

/-- A run of several steps that gives a next state took one step that does, and the rest from there. -/
theorem runSteps_succ_next {s t : State} {k : Nat} (h : runSteps (k + 1) s = .next t) :
    ∃ u, step s = .next u ∧ runSteps k u = .next t := by
  have hr := (coreRun_succ Sys2Proof.core k s).symm.trans h
  cases hs : Sys2Proof.core.step s with
  | next u => exact ⟨u, hs, (runSteps_succ k hs).symm.trans h⟩
  | fault f =>
    rw [hs] at hr
    cases hr
  | refused r =>
    rw [hs] at hr
    cases hr

/-- Runs compose. -/
theorem runSteps_add {s t : State} {a : Nat} (b : Nat) (h : runSteps a s = .next t) :
    runSteps (a + b) s = runSteps b t := by
  induction a generalizing s with
  | zero =>
    cases h
    rw [Nat.zero_add]
  | succ a ih =>
    obtain ⟨u, hs, hu⟩ := runSteps_succ_next h
    rw [Nat.add_right_comm, runSteps_succ _ hs, ih hu]

end Sys2Proof.Machine
end

