-- ==== Sys2Proof/Laws/Frames.lean ====
section
/-! SUPPORT. What the completion of a frame, the choice of a symbol, the encoder and the validator can do, said once. -/

namespace Sys2Proof.Machine

/-- Everything the trigger `98 04` can do. -/
theorem completeFrame_cases (s : State) :
    (s.len ≤ 4 ∧ completeFrame s = .next (setMode .normal s)) ∨
    (4 < s.len ∧ s.buf.readRange 0 s.len = none ∧ completeFrame s = .fault .bufOutOfRange) ∨
    (∃ bytes, 4 < s.len ∧ s.buf.readRange 0 s.len = some bytes ∧
      (frameFields bytes).received = crcCompute (frameFields bytes).covered ∧
      completeFrame s = .next (finish .success (latchResponse (frameFields bytes) (setMode .normal s)))) ∨
    (∃ bytes, 4 < s.len ∧ s.buf.readRange 0 s.len = some bytes ∧
      (frameFields bytes).received ≠ crcCompute (frameFields bytes).covered ∧
      completeFrame s = .next (finish .checksumError (setMode .normal s))) := by
  by_cases hl : s.len ≤ 4
  · exact .inl ⟨hl, by simp [completeFrame, Config.completionFloor, hl]⟩
  · have hl' : 4 < s.len := by omega
    cases hr : s.buf.readRange 0 s.len with
    | none => exact .inr (.inl ⟨hl', rfl, by simp [completeFrame, Config.completionFloor, hl, hr]⟩)
    | some bytes =>
      by_cases hc : (frameFields bytes).received = crcCompute (frameFields bytes).covered
      · exact .inr (.inr (.inl ⟨bytes, hl', rfl, hc, by simp [completeFrame, Config.completionFloor, hl, hr, hc]⟩))
      · exact .inr (.inr (.inr ⟨bytes, hl', rfl, hc, by simp [completeFrame, Config.completionFloor, hl, hr, hc]⟩))

theorem setMode_normal_of_normal {s : State} (h : s.mode = .normal) : setMode .normal s = s := by
  cases s
  simp_all [setMode]

/-- `stuff` gives one byte, or two for the marker. -/
theorem stuff_marker : stuff Config.marker = [Config.marker, Config.codeEscape] := by simp [stuff]

theorem stuff_other {b : Byte} (h : b ≠ Config.marker) : stuff b = [b] := by simp [stuff, h]

@[simp] theorem stuffAll_nil : stuffAll [] = [] := rfl

@[simp] theorem stuffAll_cons (b : Byte) (bs : List Byte) : stuffAll (b :: bs) = stuff b ++ stuffAll bs := by
  simp [stuffAll]

@[simp] theorem stuffAll_append (as bs : List Byte) : stuffAll (as ++ bs) = stuffAll as ++ stuffAll bs := by
  simp [stuffAll]

@[simp] theorem payload_length (a : Half) (c : Byte) (d : List Byte) : (payload a c d).length = d.length + 3 := by
  simp [payload]

@[simp] theorem halfBytes_length (v : Half) : (halfBytes v).length = 2 := rfl

/-- Everything an `ENC.START` can do. -/
theorem execEncStart_cases (addr : Half) (cmd : Byte) (dlen : Nat) (s : State) :
    (s.encBusy = true ∧ execEncStart addr cmd dlen s = .refused .encBusy) ∨
    (s.encBusy = false ∧ s.params.maxDlen < dlen ∧ execEncStart addr cmd dlen s = .refused .dataTooLong) ∨
    (s.encBusy = false ∧ dlen ≤ s.params.maxDlen ∧ s.reqData.readRange 0 dlen = none ∧
      execEncStart addr cmd dlen s = .fault .unwrittenReqData) ∨
    (∃ data, s.encBusy = false ∧ dlen ≤ s.params.maxDlen ∧ s.reqData.readRange 0 dlen = some data ∧
      execEncStart addr cmd dlen s = .next { s with
        reqAddr := addr, reqCmd := cmd, reqDlen := dlen, ecrc := crcCompute (payload addr cmd data),
        encPos := 0, encBusy := true }) := by
  by_cases hb : s.encBusy = true
  · exact .inl ⟨hb, by simp [execEncStart, hb]⟩
  · have hb' : s.encBusy = false := by simpa using hb
    by_cases hd : s.params.maxDlen < dlen
    · exact .inr (.inl ⟨hb', hd, by simp [execEncStart, hb', hd]⟩)
    · cases hr : s.reqData.readRange 0 dlen with
      | none => exact .inr (.inr (.inl ⟨hb', by omega, rfl, by simp [execEncStart, hb', hd, hr]⟩))
      | some data => exact .inr (.inr (.inr ⟨data, hb', by omega, rfl, by simp [execEncStart, hb', hd, hr]⟩))

/-- Everything an `ENC.STEP` can do. -/
theorem execEncStep_cases (s : State) :
    (s.encBusy = false ∧ execEncStep s = .refused .encIdle) ∨
    (s.encBusy = true ∧ requestStream s = none ∧ execEncStep s = .fault .unwrittenReqData) ∨
    (∃ stream, s.encBusy = true ∧ requestStream s = some stream ∧ stream.length ≤ s.encPos ∧
      execEncStep s = .fault .encPosPastEnd) ∨
    (∃ stream b, s.encBusy = true ∧ requestStream s = some stream ∧ stream[s.encPos]? = some b ∧
      execEncStep s = .next { s with
        out := { tx := some ⟨b, s.encPos + 1 == stream.length⟩ }
        encPos := s.encPos + 1
        encBusy := !(s.encPos + 1 == stream.length) }) := by
  by_cases hb : s.encBusy = true
  · cases hr : requestStream s with
    | none => exact .inr (.inl ⟨hb, rfl, by simp [execEncStep, hb, hr]⟩)
    | some stream =>
      cases hs : stream[s.encPos]? with
      | none =>
        exact .inr (.inr (.inl ⟨stream, hb, rfl, by simpa using hs, by simp [execEncStep, hb, hr, hs]⟩))
      | some b =>
        exact .inr (.inr (.inr ⟨stream, b, hb, rfl, hs, by simp [execEncStep, hb, hr, hs, drivePorts]⟩))
  · exact .inl ⟨by simpa using hb, by simp [execEncStep, hb]⟩

/-- Everything a `DEC.STEP` that gives a next state can have done. -/
theorem execDecStep_next {elapsed : Time} {rd : ReadOutcome} {b : Byte} {s t : State}
    (h : execDecStep elapsed rd b s = .next t) :
    s.decActive = true ∧
    ((rd ≠ .reserved ∧ deadlinePassed elapsed s = true ∧ t = finish .timeout s) ∨
     (rd = .none ∧ deadlinePassed elapsed s = false ∧ t = s) ∨
     (rd = .byte ∧ deadlinePassed elapsed s = false ∧ process b s = .next t) ∨
     (rd = .err ∧ deadlinePassed elapsed s = false ∧ t = finish .transportError s)) := by
  unfold execDecStep at h
  by_cases ha : s.decActive = true
  · rw [if_pos ha] at h
    refine ⟨ha, ?_⟩
    cases hd : deadlinePassed elapsed s <;> rw [hd] at h <;> cases rd <;>
      first | (cases h; done) | (cases h; simp) | simpa using h
  · rw [if_neg ha] at h
    cases h

end Sys2Proof.Machine
end

