-- ==== Sys2Proof/Laws/PerInstr.lean ====
section
/-! SUPPORT. The family of laws stated for every instruction: the encoding of a well-formed instruction matches its own
row of the opcode table, and no row that is tried before it (spec 30_encoding.md R87). -/

namespace Sys2Proof.Laws.TableRow

/-- In priority order the first row that the instruction's encoding matches is its own. -/
def Statement (i : Instr) : Prop := WellFormed i = true → firstRow (encode i) = some (mnemonic i)

theorem esc : Statement .esc := fun _ => by decide
theorem sof : Statement .sof := fun _ => by decide
theorem eof : Statement .eof := fun _ => by decide
theorem rst : Statement .rst := fun _ => by decide
theorem eor : Statement .eor := fun _ => by decide
theorem mm : Statement .mm := fun _ => by decide

/-- The rows of the control codes, by the code. -/
theorem firstRow_control : ∀ cc : Byte, namedCodes.contains cc = false →
    firstRow (controlSequence cc) = some "IGN" := by
  decide +revert

/-- The rows of the single bytes. -/
theorem firstRow_byte : ∀ b : Byte, b ≠ Config.marker → firstRow (.wire [b]) = some "DATA" := by
  decide +revert

/-- The row of a host operation depends on `op` alone. -/
theorem firstRow_host (p : Ports) : firstRow (.host p) = firstRow (.host { op := p.op }) := rfl

/-- The rows of the operations that have operands. -/
theorem firstRow_operands : firstRow (.host { op := 0x2 }) = some "CRC.UPDATE" ∧
    firstRow (.host { op := 0x4 }) = some "ENC.LOAD" ∧ firstRow (.host { op := 0x5 }) = some "ENC.START" ∧
    firstRow (.host { op := 0x7 }) = some "DEC.START" ∧ firstRow (.host { op := 0x8 }) = some "DEC.STEP" := by
  decide

theorem ign (cc : Byte) : Statement (.ign cc) := fun h =>
  firstRow_control cc (by simpa [WellFormed] using h)

theorem mrk : Statement .mrk := fun _ => by decide

theorem data (b : Byte) : Statement (.data b) := fun h => firstRow_byte b (by simpa [WellFormed] using h)

theorem nop : Statement .nop := fun _ => by decide
theorem crcInit : Statement .crcInit := fun _ => by decide
theorem crcUpdate (b : Byte) : Statement (.crcUpdate b) := fun _ => (firstRow_host _).trans firstRow_operands.1
theorem crcRead : Statement .crcRead := fun _ => by decide
theorem encLoad (index : Nat) (b : Byte) : Statement (.encLoad index b) := fun _ => (firstRow_host _).trans firstRow_operands.2.1
theorem encStart (addr : Half) (cmd : Byte) (dlen : Nat) : Statement (.encStart addr cmd dlen) := fun _ => (firstRow_host _).trans firstRow_operands.2.2.1
theorem encStep : Statement .encStep := fun _ => by decide
theorem decStart (timeout : Time) : Statement (.decStart timeout) := fun _ => (firstRow_host _).trans firstRow_operands.2.2.2.1
theorem decStep (elapsed : Time) (rd : ReadOutcome) (b : Byte) : Statement (.decStep elapsed rd b) := fun _ => (firstRow_host _).trans firstRow_operands.2.2.2.2
theorem valGuid : Statement .valGuid := fun _ => by decide
theorem valInfo : Statement .valInfo := fun _ => by decide
theorem valAck : Statement .valAck := fun _ => by decide
theorem reservedC : Statement .reservedC := fun _ => by decide
theorem reservedD : Statement .reservedD := fun _ => by decide
theorem reservedE : Statement .reservedE := fun _ => by decide
theorem reset : Statement .reset := fun _ => by decide

end Sys2Proof.Laws.TableRow
end

