-- ==== Sys2Proof/Tests/Slice0.lean ====
section
/-! SUPPORT. The model's own tests. Expected values are those of spec 95_test_vectors.md (cited by their id) or are
written out from the encoding tables of 30_encoding.md R71, R72, R82. The last part shows, for every statement with
hypotheses, concrete states and operands that meet them. -/

namespace Sys2Proof.Tests

open Sys2Proof.Machine

/-! ## Helpers -/

/-- A small state with no free value in it: CAP = 64, MAX_DLEN = 18, nothing going on. A test lists the bytes of BUF that
it needs. -/
def base : State where
  params := { cap := 64, maxDlen := 18 }
  acc := 0xFFFF
  reqAddr := 0
  reqCmd := 0
  reqDlen := 0
  reqData := []
  encBusy := false
  encPos := 0
  ecrc := 0
  decActive := false
  mode := .normal
  buf := []
  len := 0
  tmo := 0
  ovf := false
  rspValid := false
  rspState := .success
  rspAddr := 0
  rspResult := 0
  rspDlen := 0
  out := Outputs.idle
  input := []
  draws := 1

/-- The memory that holds a row of bytes from an index on. -/
def cellsFrom (i : Nat) : List Byte → Memory
  | [] => []
  | b :: rest => (i, b) :: cellsFrom (i + 1) rest

/-- `base` in an active pass with timeout 3 and the bytes in the buffer. -/
def inDecode (m : Mode) (bytes : List Byte) : State :=
  { base with decActive := true, tmo := 3, mode := m, buf := cellsFrom 0 bytes, len := bytes.length }

/-- `inDecode` with `CAP = 8`. -/
def inSmallDecode (m : Mode) (bytes : List Byte) : State :=
  { inDecode m bytes with params := { cap := 8, maxDlen := 18 } }

/-- `base` with the latch of a pass that ended, and the buffer of a frame with this result and data. -/
def finished (st : ResponseState) (res : Byte) (data : List Byte) : State :=
  { base with
    rspValid := true, rspState := st, rspAddr := 5, rspResult := res, rspDlen := data.length
    buf := cellsFrom 0 ([0x00, 0x05, res] ++ data ++ [0x00, 0x00]), len := data.length + 5 }

/-- `base` while it encodes `REQ(0x000A, 0xFE, [])`. -/
def encoding (pos : Nat) : State :=
  { base with reqAddr := 0x000A, reqCmd := 0xFE, ecrc := 0xE0F6, encBusy := true, encPos := pos }

/-- The answer is a next state with a property. -/
def gives (o : Answer) (p : State → Bool) : Bool :=
  match o with
  | .next t => p t
  | _ => false

/-- The answer is this refusal. -/
def refuses (o : Answer) (r : Refusal) : Bool :=
  match o with
  | .refused q => decide (q = r)
  | _ => false

/-- The answer is this fault. -/
def faults (o : Answer) (f : Fault) : Bool :=
  match o with
  | .fault g => decide (g = f)
  | _ => false

/-- The bytes below `LEN`. -/
def buffered (s : State) : Option (List Byte) := s.buf.readRange 0 s.len

/-- `10 11 .. 1F`, the GUID of TV-V1. -/
def guidBytes : List Byte :=
  [0x10, 0x11, 0x12, 0x13, 0x14, 0x15, 0x16, 0x17, 0x18, 0x19, 0x1A, 0x1B, 0x1C, 0x1D, 0x1E, 0x1F]

/-- The name field of TV-V11. -/
def nameBytes : List Byte := [0x41, 0x42, 0x20, 0x20, 0x43, 0x44] ++ List.replicate 26 0x20

/-- The date field of TV-V11. -/
def dateBytes : List Byte := [0x32, 0x33, 0x31, 0x31, 0x30, 0x35]

/-! ## WellFormed: one ill-formed term for each check (30_encoding.md R71, R72, R85) -/

theorem test_data_of_marker_is_ill_formed : WellFormed (.data 0x98) = false := by decide
theorem test_ign_of_escape_is_ill_formed : WellFormed (.ign 0x00) = false := by decide
theorem test_ign_of_start_is_ill_formed : WellFormed (.ign 0x01) = false := by decide
theorem test_ign_of_end_is_ill_formed : WellFormed (.ign 0x02) = false := by decide
theorem test_ign_of_restart_is_ill_formed : WellFormed (.ign 0x03) = false := by decide
theorem test_ign_of_complete_is_ill_formed : WellFormed (.ign 0x04) = false := by decide
theorem test_ign_of_marker_is_ill_formed : WellFormed (.ign 0x98) = false := by decide
theorem test_ign_of_other_is_well_formed : WellFormed (.ign 0x05) = true := by decide
theorem test_data_of_other_is_well_formed : WellFormed (.data 0x99) = true := by decide

/-! ## Decoding: one written-out word for every constructor -/

/-- The marker byte is 1001 1000, then the code (R71, R72). -/
theorem test_decode_control_words :
    decodeTableWord 16 0b1001100000000000 = some .esc ∧
    decodeTableWord 16 0b1001100000000001 = some .sof ∧
    decodeTableWord 16 0b1001100000000010 = some .eof ∧
    decodeTableWord 16 0b1001100000000011 = some .rst ∧
    decodeTableWord 16 0b1001100000000100 = some .eor ∧
    decodeTableWord 16 0b1001100010011000 = some .mm ∧
    decodeTableWord 16 0b1001100000000111 = some (.ign 0b00000111) ∧
    decodeTableWord 16 0b1001100011111111 = some (.ign 0b11111111) := by decide

theorem test_decode_single_bytes :
    decodeTableWord 8 0b10011000 = some .mrk ∧ decodeTableWord 8 0b10011001 = some (.data 0b10011001) ∧
    decodeWire [0b00000100] = .ok (.data 0b00000100) := ⟨by decide, by decide, rfl⟩

theorem test_decode_operation_codes :
    decodeTableWord 8 0b0000 = some .nop ∧
    decodeTableWord 8 0b0001 = some .crcInit ∧
    decodeTableWord 8 0b0010 = some (.crcUpdate 0) ∧
    decodeTableWord 8 0b0011 = some .crcRead ∧
    decodeTableWord 8 0b0100 = some (.encLoad 0 0) ∧
    decodeTableWord 8 0b0101 = some (.encStart 0 0 0) ∧
    decodeTableWord 8 0b0110 = some .encStep ∧
    decodeTableWord 8 0b0111 = some (.decStart 0) ∧
    decodeTableWord 8 0b1000 = some (.decStep 0 .none 0) ∧
    decodeTableWord 8 0b1001 = some .valGuid ∧
    decodeTableWord 8 0b1010 = some .valInfo ∧
    decodeTableWord 8 0b1011 = some .valAck ∧
    decodeTableWord 8 0b1100 = some .reservedC ∧
    decodeTableWord 8 0b1101 = some .reservedD ∧
    decodeTableWord 8 0b1110 = some .reservedE ∧
    decodeTableWord 8 0b1111 = some .reset := by decide

/-- Ports in which every operand differs, so that a swapped operand shows (R84). -/
def allPorts (op : BitVec 4) : Ports :=
  { op := op, argByte := 0x11, argAddr := 0x2233, argCmd := 0x44, argDlen := 5, argIndex := 6,
    argTimeout := 0x77777777, argElapsed := 0x88888888, argRd := 0b10 }

theorem test_decode_operands :
    decodeOp (allPorts 0x2) = .crcUpdate 0x11 ∧
    decodeOp (allPorts 0x4) = .encLoad 6 0x11 ∧
    decodeOp (allPorts 0x5) = .encStart 0x2233 0x44 5 ∧
    decodeOp (allPorts 0x7) = .decStart 0x77777777 ∧
    decodeOp (allPorts 0x8) = .decStep 0x88888888 .err 0x11 := by decide

/-- `0 = NONE, 1 = BYTE, 2 = ERR, 3` reserved (10_state.md R34). -/
theorem test_decode_read_outcome :
    decodeRead 0 = .none ∧ decodeRead 1 = .byte ∧ decodeRead 2 = .err ∧ decodeRead 3 = .reserved := by decide

theorem test_decode_rejects :
    decodeWire [] = .error .empty ∧ decodeWire [0x97, 0x00] = .error .noMarker ∧
    decodeWire [0x98, 0x00, 0x00] = .error .tooLong := ⟨rfl, rfl, rfl⟩

/-- The wire symbols of TV-D13 `98 98 98`: `MM`, then a lone `MRK`. -/
theorem test_decode_stream :
    decodeStream .normal [0x98, 0x98, 0x98] = ([.mrk, .mm, .mrk], .afterMarker) := by decide

/-- No two rows of one format and one priority match the same word: some bit that both fix differs (R87). -/
theorem test_rows_do_not_overlap :
    opcodeTable.Pairwise fun r q => r.format = q.format → r.priority = q.priority →
      r.pattern &&& (r.mask &&& q.mask) ≠ q.pattern &&& (r.mask &&& q.mask) := by decide

/-- Whatever the open choice, the three reserved commands meet the constraints of 00_scope.md R7. -/
theorem test_commands_admissible :
    Config.commandTriples.all (fun c => decide (250 ≤ c.1.toNat) && decide (250 ≤ c.2.1.toNat) &&
      decide (250 ≤ c.2.2.toNat) && c.1 != c.2.1 && c.1 != c.2.2 && c.2.1 != c.2.2) = true := by decide +kernel

/-! ## CRC engine -/

/-- TV-C2. -/
theorem test_crc_update_values :
    crcUpdate 0xFFFF 0x98 = 0xEABE ∧ crcUpdate 0x8000 0x00 = 0x0080 ∧ crcUpdate 0x1234 0x56 = 0xE993 ∧
    crcUpdate 0x0000 0x80 = 0xA001 := by decide

/-- TV-C3, "123456789". -/
theorem test_crc_compute_digits :
    crcCompute [0x31, 0x32, 0x33, 0x34, 0x35, 0x36, 0x37, 0x38, 0x39] = 0x4B37 := by decide +kernel

/-- TV-C3, a payload of markers. -/
theorem test_crc_compute_markers : crcCompute [0x98, 0x01, 0x98, 0x98, 0x00, 0x97] = 0xE2CE := by decide +kernel

/-- TV-C4. -/
theorem test_crcInit : gives (exec .crcInit { base with acc := 0x1234 }) (fun t => t.acc == 0xFFFF) = true := by decide

/-- TV-C4. -/
theorem test_crcUpdate :
    gives (exec (.crcUpdate 0x0A) { base with acc := 0x40BF }) (fun t => t.acc == 0xB781) = true := by decide

/-- TV-C4. -/
theorem test_crcRead :
    gives (exec .crcRead { base with acc := 0xE0F6 })
      (fun t => t.out.acc == some 0xE0F6 && t.acc == 0xE0F6) = true := by decide

/-! ## Frame encoder -/

/-- TV-E1, the document's example. -/
theorem test_encode_example :
    encodeFrame 0x000A 0xFE [] = [0x00, 0x98, 0x01, 0x00, 0x0A, 0xFE, 0xE0, 0xF6, 0x98, 0x02, 0x00] := by decide +kernel

/-- TV-E2, markers in address, command and data. -/
theorem test_encode_markers :
    encodeFrame 0x9801 0x98 [0x98, 0x00, 0x97] =
      [0x00, 0x98, 0x01, 0x98, 0x00, 0x01, 0x98, 0x00, 0x98, 0x00, 0x00, 0x97, 0xE2, 0xCE, 0x98, 0x02, 0x00] := by
  decide +kernel

/-- TV-E9, both checksum bytes are the marker. -/
theorem test_encode_marker_checksum :
    encodeFrame 0x009C 0xDE [] =
      [0x00, 0x98, 0x01, 0x00, 0x9C, 0xDE, 0x98, 0x00, 0x98, 0x00, 0x98, 0x02, 0x00] := by decide +kernel

/-- P2 part b: the second byte of the data. -/
theorem test_encLoad :
    gives (exec (.encLoad 1 0x00) { base with reqData := [(0, 0x98), (2, 0x97)] })
      (fun t => t.reqData == [(0, 0x98), (1, 0x00), (2, 0x97)]) = true := by decide

theorem test_encLoad_refused :
    refuses (exec (.encLoad 18 0x00) base) .indexOutOfRange = true ∧
    refuses (exec (.encLoad 0 0x00) (encoding 3)) .encBusy = true := by decide

/-- TV-E15. -/
theorem test_encStart :
    gives (exec (.encStart 0x000A 0xFE 0) base)
      (fun t => t.ecrc == 0xE0F6 && t.encPos == 0 && t.encBusy && t.out.tx == none) = true := by decide +kernel

theorem test_encStart_stops :
    faults (exec (.encStart 0 0 1) base) .unwrittenReqData = true ∧
    refuses (exec (.encStart 0 0 19) base) .dataTooLong = true := by decide

/-- TV-E15, step 2. -/
theorem test_encStep_middle :
    gives (exec .encStep (encoding 1))
      (fun t => t.out.tx == some ⟨0x98, false⟩ && t.encPos == 2 && t.encBusy) = true := by decide +kernel

/-- TV-E15, step 11 and the refused step 12. -/
theorem test_encStep_last :
    gives (exec .encStep (encoding 10))
      (fun t => t.out.tx == some ⟨0x00, true⟩ && t.encPos == 11 && !t.encBusy) = true ∧
    refuses (exec .encStep { encoding 11 with encBusy := false }) .encIdle = true := by decide +kernel

/-! ## Frame decoder: the wire symbols -/

/-- TV-D21, the ninth byte with CAP = 8. -/
theorem test_data_overflow :
    gives (exec (.data 0x09) (inSmallDecode .normal [1, 2, 3, 4, 5, 6, 7, 8]))
      (fun t => buffered t == some [0x09] && t.len == 1 && t.ovf) = true := by decide

/-- TV-D21, the eighth byte fits. -/
theorem test_data_last_that_fits :
    gives (exec (.data 0x08) (inSmallDecode .normal [1, 2, 3, 4, 5, 6, 7]))
      (fun t => buffered t == some [1, 2, 3, 4, 5, 6, 7, 8] && t.len == 8 && !t.ovf) = true := by decide

/-- P3 step 2. -/
theorem test_mrk :
    gives (exec .mrk (inDecode .normal [0x55, 0xAA]))
      (fun t => t.mode == .afterMarker && buffered t == some [0x55, 0xAA]) = true := by decide

/-- TV-D27. -/
theorem test_esc :
    gives (exec .esc (inDecode .afterMarker [0x01]))
      (fun t => t.mode == .normal && buffered t == some [0x01, 0x98]) = true := by decide

/-- TV-D13: `98 98` appends the marker and returns to NORMAL (90_conflicts.md C2). -/
theorem test_mm :
    gives (exec .mm (inDecode .afterMarker []))
      (fun t => t.mode == .normal && buffered t == some [0x98]) = true := by decide

/-- TV-D3: `98 01` is ignored. -/
theorem test_sof :
    gives (exec .sof (inDecode .afterMarker [0x00]))
      (fun t => t.mode == .normal && buffered t == some [0x00]) = true := by decide

/-- TV-D3: `98 02` does not complete the frame. -/
theorem test_eof :
    gives (exec .eof (inDecode .afterMarker [0x00, 0x0A, 0xFE, 0xE0, 0xF6]))
      (fun t => t.mode == .normal && t.decActive && t.len == 5) = true := by decide

/-- P3 step 7. -/
theorem test_rst :
    gives (exec .rst { inDecode .afterMarker [0x55, 0xAA, 0x11] with ovf := true })
      (fun t => t.mode == .normal && t.len == 0 && t.ovf && t.decActive) = true := by decide

/-- P3 step 3. -/
theorem test_ign :
    gives (exec (.ign 0x07) (inDecode .afterMarker [0x55, 0xAA]))
      (fun t => t.mode == .normal && buffered t == some [0x55, 0xAA]) = true := by decide

/-- TV-D5: success. -/
theorem test_eor_success :
    gives (exec .eor (inDecode .afterMarker [0x98, 0x01, 0x98, 0x98, 0x00, 0x97, 0xE2, 0xCE]))
      (fun t => t.rspValid && t.rspState == .success && t.rspAddr == 0x9801 && t.rspResult == 0x98 &&
        t.rspDlen == 3 && rspData t 0 == some 0x98 && rspData t 2 == some 0x97 && rspData t 3 == none &&
        !t.decActive && t.mode == .normal) = true := by decide +kernel

/-- TV-D7: one checksum bit wrong; TV-D9: four buffered bytes do not complete. -/
theorem test_eor_failure_and_short :
    gives (exec .eor (inDecode .afterMarker [0x00, 0x0A, 0xFE, 0xE0, 0xF7]))
      (fun t => t.rspValid && t.rspState == .checksumError && !t.decActive && t.len == 5) = true ∧
    gives (exec .eor (inDecode .afterMarker [0x01, 0x02, 0x03, 0x04]))
      (fun t => !t.rspValid && t.decActive && t.mode == .normal && buffered t == some [1, 2, 3, 4]) = true := by decide +kernel

/-! ## Frame decoder: the operations -/

/-- TV-D20: the mode does not survive `DEC.START`; TV-D28. -/
theorem test_decStart :
    gives (exec (.decStart 10) { inDecode .afterMarker [0x01] with decActive := false, rspValid := true, ovf := true })
      (fun t => t.mode == .normal && t.len == 0 && t.tmo == 10 && t.decActive && !t.rspValid && !t.ovf) = true ∧
    refuses (exec (.decStart 10) (inDecode .normal [])) .passActive = true := by decide

/-- TV-D22: 3 > 3 is false, 4 > 3 ends the pass. -/
theorem test_decStep_deadline :
    gives (exec (.decStep 3 .none 0) (inDecode .afterMarker [0x01]))
      (fun t => t == inDecode .afterMarker [0x01]) = true ∧
    gives (exec (.decStep 4 .none 0) (inDecode .normal []))
      (fun t => t.rspValid && t.rspState == .timeout && !t.decActive) = true := by decide

/-- TV-D24, TV-D25, TV-D28: the failed read, the deadline before it, the refused forms. -/
theorem test_decStep_failures :
    gives (exec (.decStep 2 .err 0) (inDecode .afterMarker [0x01]))
      (fun t => t.rspState == .transportError && !t.decActive && t.len == 1 && t.mode == .afterMarker) = true ∧
    gives (exec (.decStep 11 .err 0) (inDecode .normal [])) (fun t => t.rspState == .timeout) = true ∧
    refuses (exec (.decStep 11 .reserved 0) (inDecode .normal [])) .reservedRead = true ∧
    refuses (exec (.decStep 0 .byte 0x55) base) .noPass = true := by decide

/-! ## Validator -/

/-- TV-V1. -/
theorem test_valGuid_accept :
    gives (exec .valGuid (finished .success 0 guidBytes))
      (fun t => t.out.verdict == some .accept && t.out.collision == some false &&
        t.out.guid == some 0x101112131415161718191A1B1C1D1E1F) = true := by decide

/-- TV-V3, TV-V4, TV-V6, TV-V10. -/
theorem test_valGuid_drops :
    gives (exec .valGuid (finished .checksumError 0 []))
      (fun t => t.out.verdict == some .dropChecksum && t.out.collision == some true && t.out.guid == none) = true ∧
    gives (exec .valGuid (finished .success 0 (guidBytes.take 15)))
      (fun t => t.out.verdict == some .dropLength && t.out.collision == some false) = true ∧
    gives (exec .valGuid (finished .timeout 0 [])) (fun t => t.out.verdict == some .dropState) = true ∧
    refuses (exec .valGuid base) .noResponse = true := by decide

/-- TV-V11. -/
theorem test_valInfo_accept :
    gives (exec .valInfo (finished .success 0 (guidBytes ++ nameBytes ++ dateBytes)))
      (fun t => t.out.verdict == some .accept && t.out.guid == some 0x101112131415161718191A1B1C1D1E1F &&
        t.out.nameRaw == some nameBytes && t.out.dateRaw == some dateBytes &&
        deviceInfo t.out ==
          some ⟨0x101112131415161718191A1B1C1D1E1F, [0x41, 0x42, 0x20, 0x43, 0x44, 0x20], dateBytes⟩) = true := by
  decide +kernel

/-- TV-V11 without the last date byte, TV-V8, TV-V3, TV-V6. -/
theorem test_valInfo_drops :
    gives (exec .valInfo (finished .success 0 (guidBytes ++ nameBytes ++ dateBytes.take 5)))
      (fun t => t.out.verdict == some .dropLength) = true ∧
    gives (exec .valInfo (finished .success 1 [])) (fun t => t.out.verdict == some .dropResult) = true ∧
    gives (exec .valInfo (finished .checksumError 1 [])) (fun t => t.out.verdict == some .dropChecksum) = true ∧
    gives (exec .valInfo (finished .timeout 1 [])) (fun t => t.out.verdict == some .dropState) = true := by decide

/-- TV-V7, TV-V8, TV-V3, TV-V6. -/
theorem test_valAck :
    gives (exec .valAck (finished .success 0 [])) (fun t => t.out.verdict == some .accept) = true ∧
    gives (exec .valAck (finished .success 1 [])) (fun t => t.out.verdict == some .dropResult) = true ∧
    gives (exec .valAck (finished .checksumError 0 [])) (fun t => t.out.verdict == some .dropChecksum) = true ∧
    gives (exec .valAck (finished .timeout 0 [])) (fun t => t.out.verdict == some .dropState) = true := by decide

/-- The collapse alone: TV-V9's runs of spaces, leading and trailing ones among them. -/
theorem test_collapseSpaces :
    collapseSpaces [0x20, 0x20, 0x58] = [0x20, 0x58] ∧ collapseSpaces [0x41, 0x20, 0x42] = [0x41, 0x20, 0x42] ∧
    collapseSpaces [0x41, 0x20, 0x20, 0x20] = [0x41, 0x20] := by decide

/-- TV-V9. -/
theorem test_decodeName :
    decodeName [0x41, 0x42, 0x20, 0x20, 0x43, 0x44] = [0x41, 0x42, 0x20, 0x43, 0x44] ∧
    decodeName [0x41, 0x20, 0x00, 0x20, 0x42, 0x7F, 0x80, 0x20] = [0x41, 0x20, 0x42, 0x20] ∧
    decodeName [0x20, 0x20, 0x58] = [0x20, 0x58] ∧ decodeName [0x00, 0x01] = [] := by decide

/-! ## Control, status, steps -/

theorem test_nop : gives (exec .nop base) (fun t => t == base) = true := by decide

/-- The three reserved codes (30_encoding.md R83). -/
theorem test_reserved_codes :
    refuses (exec .reservedC base) .reservedOp = true ∧ refuses (exec .reservedD base) .reservedOp = true ∧
    refuses (exec .reservedE base) .reservedOp = true := by decide

/-- 10_state.md R37. -/
theorem test_reset :
    gives (exec .reset { encoding 3 with acc := 0x1234, decActive := true, mode := .afterMarker, ovf := true })
      (fun t => t.acc == 0xFFFF && !t.encBusy && t.encPos == 0 && !t.decActive && t.mode == .normal && t.len == 0 &&
        !t.ovf && !t.rspValid) = true := by decide

/-- After `RESET` every byte of BUF holds a value, a free one, and no index beyond CAP has one (R37). -/
theorem test_reset_buf :
    gives (exec .reset (inSmallDecode .normal [1, 2])) (fun t =>
      (List.range 8).all (fun i => (t.buf.read i).isSome) && t.buf.read 8 == none) = true := by decide

/-- `State.reset` is what `RESET` leaves, draw 0 being the reset's own. -/
theorem test_reset_state_agrees : State.reset = resetBlock { State.reset with draws := 0, acc := 0 } := rfl

/-- The status byte of P3 and of P5. -/
theorem test_status :
    status (finished .success 0 []) = 0x04 ∧ status { finished .success 0 [] with ovf := true } = 0x14 := by decide

/-- A refused operation leaves the state and raises `refused` (30_encoding.md R83). -/
theorem test_drive_refused :
    (match drive { base with input := [{ op := 0xC }, { op := 0x0 }] } with
      | .next (t, refused) => refused && t == { base with input := [{ op := 0x0 }] }
      | _ => false) = true := by decide

/-- A word placed at the fetch after reset runs: `CRC.UPDATE 00` gives 0x40BF (TV-C4), `98 03` empties the buffer. -/
theorem test_first_instruction_after_reset :
    gives (step (State.reset.withFetchWord 8 0x2)) (fun t => t.acc == 0x40BF) = true ∧
    gives (step (State.reset.withFetchWord 16 0x9803)) (fun t => t.mode == .normal && t.len == 0) = true ∧
    gives (step (State.reset.withFetchWord 8 0x41)) (fun t => t.len == 1) = true := by decide

/-- With no operation presented the block waits. -/
theorem test_step_waits :
    gives (step { base with out := { acc := some 1 } }) (fun t => t == base) = true := by decide

/-- TV-V8: a nonzero Result is a failure that carries the ResponseState and the Result (R191). -/
theorem test_assignResult :
    assignResult { finished .success 1 [] with out := { verdict := some .dropResult } } = .error ⟨.success, 1⟩ ∧
    assignResult { finished .success 0 [] with out := { verdict := some .accept } } = .ok () := ⟨rfl, rfl⟩

/-- S7: two good replies and a corrupted one between them; the order of arrival is no part of the set (R189). -/
theorem test_discovered :
    discovered [{ verdict := some .accept, guid := some 7 }, { verdict := some .dropChecksum },
      { verdict := some .accept, guid := some 9 }, { verdict := some .accept, guid := some 7 }] = {9, 7} := by decide

/-- `retries + 1` attempts (S6), and the first success ends them (P6). -/
theorem test_retryLoop :
    infoAttempts (List.replicate 6 .timeout) = some (6, .timeout) ∧
    retryLoop 1 [.timeout, .success] = some (2, .success) ∧
    retryLoop 1 [.timeout, .checksumError, .success] = some (2, .checksumError) := by decide

/-! ## Witnesses: for every statement with hypotheses, states and operands that meet them together -/

/-- `base` with CAP = 5, the least value 00_scope.md R7 allows, and every byte of BUF listed. -/
def idle : State := { base with params := { cap := 5, maxDlen := 18 }, buf := cellsFrom 0 [0, 0, 0, 0, 0] }

/-- `idle` with operations presented. -/
def presenting (ps : List Ports) : State := { idle with input := ps }

theorem sound_idle : Sound idle where
  cap_ge := by decide
  buf_wf := by decide
  buf_within := by unfold Memory.within; decide
  len_le := by decide
  buf_covers := by unfold Memory.covers; decide
  req_wf := by decide
  req_within := by unfold Memory.within; decide
  reqDlen_le := by decide
  busy_stream := by intro h; cases h
  one_phase := by decide
  rspDlen_le := by decide
  valid_state := by decide
  valid_success := by decide

theorem sound_presenting (ps : List Ports) : Sound (presenting ps) := { sound_idle with }

/-- A sound state with a full buffer, in an active pass: CAP = 5, the least value 00_scope.md R7 allows. -/
def fullPass : State :=
  { inDecode .normal [0x00, 0x0A, 0xFE, 0xE0, 0xF6] with params := { cap := 5, maxDlen := 0 } }

theorem sound_fullPass : Sound fullPass where
  cap_ge := by decide
  buf_wf := by decide
  buf_within := by unfold Memory.within; decide
  len_le := by decide
  buf_covers := by unfold Memory.covers; decide
  req_wf := by decide
  req_within := by unfold Memory.within; decide
  reqDlen_le := by decide
  busy_stream := by intro h; cases h
  one_phase := by decide
  rspDlen_le := by decide
  valid_state := by decide
  valid_success := by decide

/-- The pass of `fullPass` with the marker of the trigger read. -/
def fullPassAfterMarker : State := { fullPass with mode := .afterMarker }

theorem sound_fullPassAfterMarker : Sound fullPassAfterMarker :=
  { sound_fullPass with }

/-- `idle` with the encoder busy, on its last byte. -/
def lastByte : State :=
  { encoding 10 with params := idle.params, buf := idle.buf }

theorem sound_lastByte : Sound lastByte where
  cap_ge := by decide
  buf_wf := by decide
  buf_within := by unfold Memory.within; decide
  len_le := by decide
  buf_covers := by unfold Memory.covers; decide
  req_wf := by decide
  req_within := by unfold Memory.within; decide
  reqDlen_le := by decide
  busy_stream := fun _ => ⟨[], rfl, by decide +kernel, by decide +kernel⟩
  one_phase := by decide
  rspDlen_le := by decide
  valid_state := by decide
  valid_success := by decide

theorem witness_DecodeOfEncode :
    WellFormed (.ign 0x05) = true ∧ WellFormed (.data 0xFF) = true ∧ WellFormed (.encStart 0xFFFF 0xFF 18) = true ∧
    WellFormed (.decStep 0xFFFFFFFF .reserved 0xFF) = true := by decide

theorem witness_EncodeOfDecodedWire :
    decode (.wire [0x98, 0x05]) = .ok (.ign 0x05) ∧ decode (.wire [0x98]) = .ok .mrk ∧
    decode (.wire [0x00]) = .ok (.data 0x00) := ⟨rfl, rfl, rfl⟩

theorem witness_CrcInitAndUpdateResult : (allPorts 0x1).op = 0x1 ∧ (allPorts 0x2).op = 0x2 := by decide

theorem witness_IncrementalCrcRead :
    (allPorts 0x3).op = 0x3 ∧
    (presenting [{ op := 0x1 }, { op := 0x3 }]).input =
      ({ op := 0x1 } : Ports) :: (([] : List Byte).map fun b => ({ op := 0x2, argByte := b } : Ports))
        ++ [{ op := 0x3 }] ∧
    (presenting [{ op := 0x1 }, { op := 0x2, argByte := 0x31 }, { op := 0x3 }]).input =
      ({ op := 0x1 } : Ports) :: (([0x31] : List Byte).map fun b => ({ op := 0x2, argByte := b } : Ports))
        ++ [{ op := 0x3 }] := by decide

theorem witness_OneByteErrorChangesChecksum : (0x00 : Byte) ≠ 0x80 := by decide

theorem witness_EncLoadResult :
    base.encBusy = false ∧ 0 < base.params.maxDlen ∧ 17 < base.params.maxDlen := by decide

/-- `base` with 16 request bytes loaded. -/
def requestLoaded : State := { base with reqData := cellsFrom 0 guidBytes }

/-- An `ENC.START` over no data and over 16 loaded bytes. -/
theorem witness_EncStartResult :
    (base.encBusy = false ∧ ([] : List Byte).length ≤ base.params.maxDlen ∧
      ∀ k, k < ([] : List Byte).length → base.reqData.read k = ([] : List Byte)[k]?) ∧
    (requestLoaded.encBusy = false ∧ guidBytes.length ≤ requestLoaded.params.maxDlen ∧
      ∀ k, k < guidBytes.length → requestLoaded.reqData.read k = guidBytes[k]?) := by decide

/-- The first byte of the stream and the last one. -/
theorem witness_EncStepResult :
    ((encoding 0).encBusy = true ∧ ([] : List Byte).length = (encoding 0).reqDlen ∧
      (∀ k, k < ([] : List Byte).length → (encoding 0).reqData.read k = ([] : List Byte)[k]?) ∧
      (encodeFrame 0x000A 0xFE [])[0]? = some 0x00) ∧
    ((encoding 10).encBusy = true ∧ ([] : List Byte).length = (encoding 10).reqDlen ∧
      (∀ k, k < ([] : List Byte).length → (encoding 10).reqData.read k = ([] : List Byte)[k]?) ∧
      (encodeFrame 0x000A 0xFE [])[10]? = some 0x00) := by decide +kernel

theorem witness_EncoderTurnsAway :
    (encoding 0).encBusy = true ∧ base.encBusy = false ∧ base.params.maxDlen ≤ 18 ∧ base.params.maxDlen < 19 := by
  decide

theorem witness_UnwrittenRequestDataFaults :
    requestLoaded.encBusy = false ∧ 17 ≤ requestLoaded.params.maxDlen ∧ 16 < 17 ∧
    requestLoaded.reqData.read 16 = none := by decide

theorem witness_EncodedFrameShape :
    (encodeFrame 0x000A 0xFE [])[1]? = some 0x98 ∧ (encodeFrame 0x000A 0xFE [])[8]? = some 0x98 ∧
    (encodeFrame 0x9801 0xFE [])[3]? = some 0x98 := by decide +kernel

/-- A request of MAX_DLEN markers. -/
def longestRequest : Request := ⟨0x9801, 0x98, List.replicate 18 0x98⟩

/-- A request without data, and one of MAX_DLEN bytes. -/
theorem witness_EncodePassEmitsRequest :
    ((presenting (encodePorts ⟨0x000A, 0xFE, []⟩)).encBusy = false ∧
      ([] : List Byte).length ≤ (presenting (encodePorts ⟨0x000A, 0xFE, []⟩)).params.maxDlen ∧
      (presenting (encodePorts ⟨0x000A, 0xFE, []⟩)).input = encodePorts ⟨0x000A, 0xFE, []⟩) ∧
    ((presenting (encodePorts longestRequest)).encBusy = false ∧
      longestRequest.data.length ≤ (presenting (encodePorts longestRequest)).params.maxDlen ∧
      (presenting (encodePorts longestRequest)).input = encodePorts longestRequest) :=
  ⟨⟨rfl, Nat.zero_le _, rfl⟩, rfl, Nat.le_refl 18, rfl⟩

theorem witness_DecStartResult :
    base.decActive = false ∧ (inDecode .normal []).decActive = true := by decide

/-- The deadline is inclusive: elapsed 3 with timeout 3. -/
theorem witness_IdleReadChangesNothing :
    (inDecode .afterMarker [0x01]).decActive = true ∧
    (3 : Time).toNat ≤ (inDecode .afterMarker [0x01]).tmo.toNat := by decide

theorem witness_FailedReadEndsPass :
    (inDecode .afterMarker [0x01]).decActive = true ∧
    (3 : Time).toNat ≤ (inDecode .afterMarker [0x01]).tmo.toNat := by decide

theorem witness_DeadlineEndsPass :
    (inDecode .normal [0x01]).decActive = true ∧ ReadOutcome.byte ≠ .reserved ∧
    (inDecode .normal [0x01]).tmo.toNat < (4 : Time).toNat := by decide

theorem witness_DecoderTurnsAway : (inDecode .normal []).decActive = true ∧ base.decActive = false := by decide

theorem witness_DeliveredByteRunsItsSymbol :
    (inDecode .afterMarker []).decActive = true ∧ (3 : Time).toNat ≤ (inDecode .afterMarker []).tmo.toNat := by decide

theorem witness_OrdinaryByteIsAppended :
    (0x00 : Byte) ≠ 0x98 ∧ (0x99 : Byte) ≠ 0x98 ∧
    (inDecode .normal []).decActive = true ∧ (inDecode .normal []).len ≠ (inDecode .normal []).params.cap ∧
    fullPass.decActive = true ∧ fullPass.len = fullPass.params.cap := by decide

theorem witness_MarkerSetsMode : (inDecode .normal []).decActive = true := by decide

theorem witness_EscapedMarkerIsAppended :
    (inDecode .afterMarker []).decActive = true ∧ fullPassAfterMarker.decActive = true ∧
    fullPassAfterMarker.len = fullPassAfterMarker.params.cap := by decide

theorem witness_RestartEmptiesBuffer : fullPassAfterMarker.decActive = true := by decide

theorem witness_OtherCodesAreIgnored :
    (inDecode .afterMarker []).decActive = true ∧
    ((0x01 : Byte) ≠ 0x00 ∧ (0x01 : Byte) ≠ 0x03 ∧ (0x01 : Byte) ≠ 0x04 ∧ (0x01 : Byte) ≠ 0x98) ∧
    ((0x05 : Byte) ≠ 0x00 ∧ (0x05 : Byte) ≠ 0x03 ∧ (0x05 : Byte) ≠ 0x04 ∧ (0x05 : Byte) ≠ 0x98) := by decide

/-- TV-D1: no data, LEN = 5. -/
theorem witness_MatchingFrameSucceeds :
    fullPassAfterMarker.decActive = true ∧ fullPassAfterMarker.len = ([] : List Byte).length + 5 ∧
    (∀ k, k < fullPassAfterMarker.len →
      fullPassAfterMarker.buf.read k = ([0x00, 0x0A, 0xFE] ++ ([] : List Byte) ++ [0xE0, 0xF6])[k]?) ∧
    crcCompute ([0x00, 0x0A, 0xFE] ++ []) = ((0xE0 : Byte) ++ (0xF6 : Byte) : BitVec 16) := by decide +kernel

/-- TV-D7. -/
theorem witness_MismatchedFrameFails :
    (inDecode .afterMarker [0x00, 0x0A, 0xFE, 0xE0, 0xF7]).decActive = true ∧
    (inDecode .afterMarker [0x00, 0x0A, 0xFE, 0xE0, 0xF7]).len = ([] : List Byte).length + 5 ∧
    (∀ k, k < (inDecode .afterMarker [0x00, 0x0A, 0xFE, 0xE0, 0xF7]).len →
      (inDecode .afterMarker [0x00, 0x0A, 0xFE, 0xE0, 0xF7]).buf.read k =
        ([0x00, 0x0A, 0xFE] ++ ([] : List Byte) ++ [0xE0, 0xF7])[k]?) ∧
    crcCompute ([0x00, 0x0A, 0xFE] ++ []) ≠ ((0xE0 : Byte) ++ (0xF7 : Byte) : BitVec 16) := by decide +kernel

theorem witness_ShortTriggerIsIgnored :
    (inDecode .afterMarker [1, 2, 3, 4]).decActive = true ∧ (inDecode .afterMarker [1, 2, 3, 4]).len ≤ 4 := by decide

/-- `fullPassAfterMarker` with one buffered byte less. -/
def shortPass : State := { fullPassAfterMarker with len := 4 }

theorem sound_shortPass : Sound shortPass :=
  { sound_fullPassAfterMarker with len_le := by decide, valid_success := by decide }

/-- One witness for each row of the table: both modes, the trigger with 5 and with 4 bytes. -/
theorem witness_ModeTransitionTable :
    (Sound fullPass ∧ fullPass.decActive = true ∧ fullPass.mode = .normal) ∧
    (Sound fullPassAfterMarker ∧ fullPassAfterMarker.decActive = true ∧ fullPassAfterMarker.mode = .afterMarker ∧
      4 < fullPassAfterMarker.len) ∧
    (Sound shortPass ∧ shortPass.decActive = true ∧ shortPass.mode = .afterMarker ∧ shortPass.len ≤ 4) :=
  ⟨⟨sound_fullPass, rfl, rfl⟩, ⟨sound_fullPassAfterMarker, rfl, rfl, by decide⟩, sound_shortPass, rfl, rfl, by decide⟩

/-- The stream of TV-D1 for a buffer of CAP = 5 that is full of stale bytes. -/
def responsePass : State := { fullPass with input := deliverPorts (rspStream 0x000A 0xFE []) }

theorem witness_ResponseStreamRoundTrips :
    responsePass.decActive = true ∧ responsePass.mode = .normal ∧
    ([] : List Byte).length + 5 ≤ responsePass.params.cap ∧
    responsePass.input = deliverPorts (rspStream 0x000A 0xFE []) := ⟨rfl, rfl, by decide, rfl⟩

/-- The stream of TV-D3 with the least capacity that holds it. -/
def echoPass : State :=
  { inDecode .normal [] with
    params := { cap := 7, maxDlen := 18 }, input := deliverPorts (encodeFrame 0x000A 0xFE []) }

/-- The same stream where it does not fit, by one byte, behind two stale bytes. -/
def echoOverflow : State :=
  { inDecode .normal [0x55, 0xAA] with
    params := { cap := 6, maxDlen := 18 }, input := deliverPorts (encodeFrame 0x000A 0xFE []) }

theorem witness_OwnRequestStaysPending :
    (echoPass.decActive = true ∧ echoPass.mode = .normal ∧
      echoPass.input = deliverPorts (encodeFrame 0x000A 0xFE []) ∧ echoPass.len = 0 ∧
      ([] : List Byte).length + 7 ≤ echoPass.params.cap) ∧
    (echoOverflow.decActive = true ∧ echoOverflow.mode = .normal ∧
      echoOverflow.input = deliverPorts (encodeFrame 0x000A 0xFE []) ∧
      echoOverflow.params.cap < ([] : List Byte).length + 7) :=
  ⟨⟨rfl, rfl, rfl, rfl, by decide⟩, rfl, rfl, rfl, by decide⟩

/-- Two states that differ in a stale byte of the buffer. -/
theorem witness_StaleBufferBytesAreUnread :
    Sound idle ∧ AgreeBelowLen idle { idle with buf := cellsFrom 0 [0x11, 0, 0, 0, 0] } ∧
    exec (.decStart 3) idle = .next (armPass 3 idle) ∧ exec .nop idle = .next idle ∧
    exec .reservedC idle = .refused .reservedOp ∧ exec (.encStart 0 0 1) idle = .fault .unwrittenReqData :=
  ⟨sound_idle, ⟨rfl, fun i hi => absurd hi (Nat.not_lt_zero i)⟩, rfl, rfl, rfl, rfl⟩

theorem witness_OnlyFourOutcomesAreWritten :
    exec .nop base = .next base ∧ Instr.nop ≠ .reset ∧
    exec (.decStep 4 .none 0) (inDecode .normal []) = .next (finish .timeout (inDecode .normal [])) ∧
    Instr.decStep 4 .none 0 ≠ .reset := ⟨rfl, by decide, rfl, by decide⟩

theorem witness_OnlyStepOrResetEndsPass :
    exec (.decStep 4 .none 0) (inDecode .normal []) = .next (finish .timeout (inDecode .normal [])) ∧
    exec .reset (inDecode .normal []) = .next (resetBlock (inDecode .normal [])) ∧
    (inDecode .normal []).decActive = true ∧ (finish .timeout (inDecode .normal [])).decActive = false ∧
    (resetBlock (inDecode .normal [])).decActive = false := ⟨rfl, rfl, rfl, rfl, rfl⟩

/-- TV-V1, TV-V4, TV-V3, TV-V6, a clause each. -/
theorem witness_GuidVerdictResult :
    (allPorts 0x9).op = 0x9 ∧ base.rspValid = false ∧
    ((finished .success 1 guidBytes).rspValid = true ∧ (finished .success 1 guidBytes).rspState = .success ∧
      (finished .success 1 guidBytes).rspDlen = 16 ∧ guidBytes.length = 16 ∧
      ∀ k, k < 16 → (finished .success 1 guidBytes).buf.read (3 + k) = guidBytes[k]?) ∧
    ((finished .success 0 (guidBytes.take 15)).rspValid = true ∧
      (finished .success 0 (guidBytes.take 15)).rspState = .success ∧
      (finished .success 0 (guidBytes.take 15)).rspDlen ≠ 16) ∧
    ((finished .checksumError 0 []).rspValid = true ∧ (finished .checksumError 0 []).rspState = .checksumError) ∧
    ((finished .timeout 0 []).rspValid = true ∧ (finished .timeout 0 []).rspState ≠ .success ∧
      (finished .timeout 0 []).rspState ≠ .checksumError) := by decide +kernel

/-- TV-V11, TV-V4 (Result 0, too short), TV-V8, TV-V3, TV-V6, a clause each. -/
theorem witness_InfoVerdictResult :
    (allPorts 0xA).op = 0xA ∧ base.rspValid = false ∧
    ((finished .success 0 (guidBytes ++ nameBytes ++ dateBytes)).rspValid = true ∧
      (finished .success 0 (guidBytes ++ nameBytes ++ dateBytes)).rspState = .success ∧
      (finished .success 0 (guidBytes ++ nameBytes ++ dateBytes)).rspResult = 0 ∧
      54 ≤ (finished .success 0 (guidBytes ++ nameBytes ++ dateBytes)).rspDlen ∧
      guidBytes.length = 16 ∧ nameBytes.length = 32 ∧ dateBytes.length = 6 ∧
      ∀ k, k < 54 → (finished .success 0 (guidBytes ++ nameBytes ++ dateBytes)).buf.read (3 + k) =
        (guidBytes ++ nameBytes ++ dateBytes)[k]?) ∧
    ((finished .success 0 (guidBytes ++ nameBytes ++ dateBytes.take 5)).rspValid = true ∧
      (finished .success 0 (guidBytes ++ nameBytes ++ dateBytes.take 5)).rspState = .success ∧
      (finished .success 0 (guidBytes ++ nameBytes ++ dateBytes.take 5)).rspResult = 0 ∧
      (finished .success 0 (guidBytes ++ nameBytes ++ dateBytes.take 5)).rspDlen < 54) ∧
    ((finished .success 1 []).rspState = .success ∧ (finished .success 1 []).rspResult ≠ 0) ∧
    (finished .checksumError 0 []).rspState = .checksumError ∧
    ((finished .networkError 0 []).rspState ≠ .success ∧ (finished .networkError 0 []).rspState ≠ .checksumError) := by
  decide +kernel

theorem witness_AckVerdictResult :
    (allPorts 0xB).op = 0xB ∧ base.rspValid = false ∧
    (finished .success 0 []).rspValid = true ∧
    ((finished .success 0 []).rspState = .success ∧ (finished .success 0 []).rspResult = 0) ∧
    ((finished .success 1 []).rspState = .success ∧ (finished .success 1 []).rspResult ≠ 0) ∧
    (finished .checksumError 0 []).rspState = .checksumError ∧
    ((finished .transportError 0 []).rspState ≠ .success ∧
      (finished .transportError 0 []).rspState ≠ .checksumError) := by decide

theorem witness_ValidatorOnlyJudges :
    base.rspValid = false ∧
    exec .valAck (finished .success 0 []) =
      .next { finished .success 0 [] with out := { verdict := some .accept, collision := some false } } ∧
    exec .valGuid (finished .timeout 0 []) =
      .next { finished .timeout 0 [] with out := { verdict := some .dropState, collision := some false } } :=
  ⟨rfl, rfl, rfl⟩

theorem witness_DecodedNameIsCollapsed :
    (0x20 : Byte) ∈ decodeName [0x41, 0x20, 0x20] ∧ (decodeName [0x41, 0x20, 0x20])[1]? = some 0x20 := by decide

/-- Exactly as many outcomes as attempts, and more of them, the first after the bound a success. -/
theorem witness_RetryBound :
    (0 + 1 ≤ ([.timeout] : List ResponseState).length ∧
      ∀ o ∈ ([.timeout] : List ResponseState).take (0 + 1), o ≠ .success) ∧
    (1 + 1 ≤ ([.timeout, .checksumError, .success, .timeout] : List ResponseState).length ∧
      ∀ o ∈ ([.timeout, .checksumError, .success, .timeout] : List ResponseState).take (1 + 1), o ≠ .success) ∧
    ([.timeout] : List ResponseState).length ≤ 1 ∧
    ([.timeout, .success] : List ResponseState) = [.timeout] ++ .success :: [] := by decide

theorem witness_DiscoveryCollectsASet :
    ({ verdict := some .accept, guid := some 2 } : Outputs).verdict = some .accept ∧
    ({ verdict := some .accept, guid := some 2 } : Outputs).guid = some 2 ∧
    (2 : BitVec 128) ∈ ({1, 2} : Finset (BitVec 128)) ∧ (2 : BitVec 128) ∉ ({1} : Finset (BitVec 128)) ∧
    ({ verdict := some .dropChecksum } : Outputs).verdict ≠ some .accept ∧
    ([{ verdict := some .accept, guid := some 2 }, {}] : List Outputs).Perm
      [{}, { verdict := some .accept, guid := some 2 }] := by decide

/-- Each of the eight ResponseStates. -/
theorem witness_StatusBits :
    (finished .success 0 []).rspState = .success ∧ (finished .timeout 0 []).rspState = .timeout ∧
    (finished .formatError 0 []).rspState = .formatError ∧
    (finished .checksumError 0 []).rspState = .checksumError ∧
    (finished .unexpectedPacketType 0 []).rspState = .unexpectedPacketType ∧
    (finished .unsolicitedResponse 0 []).rspState = .unsolicitedResponse ∧
    (finished .transportError 0 []).rspState = .transportError ∧
    (finished .networkError 0 []).rspState = .networkError := by decide

theorem witness_NopResult : (allPorts 0x0).op = 0x0 := by decide

theorem witness_ReservedCodesAreRefused :
    (allPorts 0xC).op = 0xC ∧ (allPorts 0xD).op = 0xD ∧ (allPorts 0xE).op = 0xE := by decide

theorem witness_RefusedOperationChangesNothing :
    step (presenting [{ op := 0xC }]) = .refused .reservedOp ∧ step (presenting [{ op := 0x0 }]) = .next idle :=
  ⟨rfl, rfl⟩

/-- An operation of each owner, and one of nobody. -/
theorem witness_StateHasOneOwner :
    exec .crcInit base = .next base ∧ exec (.encLoad 0 0x11) base = .next { base with reqData := [(0, 0x11)] } ∧
    exec (.decStart 3) base = .next (armPass 3 base) ∧ exec .nop base = .next base ∧
    owner .nop ≠ .crc ∧ owner .nop ≠ .encoder ∧ owner .nop ≠ .decoder ∧ owner .nop ≠ .everybody :=
  ⟨rfl, rfl, rfl, rfl, by decide⟩

theorem witness_OwnersInterleaveFreely :
    owner .crcInit = .crc ∧ owner (.decStart 3) = .decoder ∧ owner .crcInit ≠ owner (.decStart 3) ∧
    exec .crcInit base = .next base ∧ exec (.decStart 3) base = .next (armPass 3 base) :=
  ⟨rfl, rfl, by decide, rfl, rfl⟩

/-- A pass of timeout 3 to which a byte is delivered at a time. -/
def deliveredAt (elapsed : Time) : State :=
  { inDecode .normal [] with input := [{ byteStep 0x55 with argElapsed := elapsed }] }

/-- No operation presented; a `DEC.STEP` with a byte just in time, late, and outside a pass; another operation. -/
theorem witness_StepRunsDecodedInstruction :
    base.input = [] ∧
    ((deliveredAt 3).input = { byteStep 0x55 with argElapsed := 3 } :: [] ∧
      decodeOp { byteStep 0x55 with argElapsed := 3 } = .decStep 3 .byte 0x55 ∧ (deliveredAt 3).decActive = true ∧
      (3 : Time).toNat ≤ (deliveredAt 3).tmo.toNat) ∧
    ((deliveredAt 4).input = { byteStep 0x55 with argElapsed := 4 } :: [] ∧
      decodeOp { byteStep 0x55 with argElapsed := 4 } = .decStep 4 .byte 0x55 ∧
      (deliveredAt 4).tmo.toNat < (4 : Time).toNat) ∧
    ((presenting [byteStep 0x55]).input = byteStep 0x55 :: [] ∧ (presenting [byteStep 0x55]).decActive = false) ∧
    ((presenting [{ op := 0x1 }]).input = ({ op := 0x1 } : Ports) :: [] ∧
      decodeOp ({ op := 0x1 } : Ports) = .crcInit) := by decide

theorem witness_StepKeepsSound :
    Sound (presenting [{ op := 0x7, argTimeout := 3 }]) ∧
    step (presenting [{ op := 0x7, argTimeout := 3 }]) = .next (armPass 3 idle) ∧
    Sound lastByte ∧ step lastByte = .next { lastByte with out := Outputs.idle } :=
  ⟨sound_presenting _, rfl, sound_lastByte, rfl⟩

theorem witness_SoundStatesFaultOnlyOnUnwrittenRequest :
    Sound (presenting [{ op := 0x5, argDlen := 1 }]) ∧
    step (presenting [{ op := 0x5, argDlen := 1 }]) = .fault .unwrittenReqData :=
  ⟨sound_presenting _, rfl⟩

end Sys2Proof.Tests
end

section
/-! What one step runs (00_scope.md R9, 10_state.md R34): the two outcomes of `fetch`, and the two outcomes of `resolve`. -/

namespace Sys2Proof.Machine

/-- The block waits when no operation is presented (log 7). -/
theorem step_of_input_nil {s : State} (h : s.input = []) : step s = .next (waitStep s) := by
  simp only [step, fetch, h]

theorem step_of_input_cons {s : State} {p : Ports} {rest : List Ports} (h : s.input = p :: rest) :
    step s = exec (resolve p s) (beginStep rest s) := by
  simp only [step, fetch, h]

/-- A byte in time in an active pass is read as a wire symbol (30_encoding.md R77). -/
theorem resolve_eq_decodeSymbol {p : Ports} {s : State} {elapsed : Time} {b : Byte}
    (hop : decodeOp p = .decStep elapsed .byte b) (hact : s.decActive = true)
    (htime : elapsed.toNat ≤ s.tmo.toNat) : resolve p s = decodeSymbol s.mode b := by
  simp [resolve, hop, hact, deadlinePassed_eq_false.mpr htime]

/-- Every other operation runs as it is decoded, a byte outside a pass or after the deadline among them. -/
theorem resolve_eq_decodeOp {p : Ports} {s : State}
    (h : ∀ elapsed b, decodeOp p = .decStep elapsed .byte b → s.decActive = false ∨ s.tmo.toNat < elapsed.toNat) :
    resolve p s = decodeOp p := by
  unfold resolve
  split
  case h_1 elapsed b hop =>
    obtain hidle | hlate := h elapsed b hop
    · simp [hop, hidle]
    · simp [hop, deadlinePassed_eq_true.mpr hlate]
  case h_2 => rfl

/-- Settles O51: a step is `exec` of what `resolve` makes of the presented ports. -/
theorem stepRunsDecodedInstruction : Obligations.StepRunsDecodedInstruction := by
  intro s
  refine ⟨step_of_input_nil, fun p rest hin => ⟨fun elapsed b hop hact htime => ?_, fun h => ?_⟩⟩
  · rw [step_of_input_cons hin, resolve_eq_decodeSymbol hop hact htime, beginStep]
  · rw [step_of_input_cons hin, resolve_eq_decodeOp h, beginStep]

end Sys2Proof.Machine
end

section
/-! The bodies of the wire symbols (42_frame_decoder.md R146 to R154): the nine symbols share five, and the byte of a
`DEC.STEP` runs one of them, so that a property of all decoder operations is proved once for each body. -/

namespace Sys2Proof.Machine

/-- What a wire symbol runs in an active pass. -/
inductive SymbolBody : (State → Answer) → Prop where
  | append (b : Byte) : SymbolBody fun s => .next (bufAppend b s)
  | appendMarker : SymbolBody appendMarker
  | setMode (m : Mode) : SymbolBody fun s => .next (setMode m s)
  | restart : SymbolBody fun s => .next (setMode .normal { s with len := 0 })
  | complete : SymbolBody completeFrame

/-- The choice of R155 looks at MODE and the byte only, and always takes one of the five bodies. -/
theorem process_eq_inPass (m : Mode) (b : Byte) :
    ∃ k, SymbolBody k ∧ ∀ s : State, s.mode = m → process b s = inPass k s := by
  cases m with
  | normal =>
    by_cases hb : b = Config.marker
    · exact ⟨_, .setMode .afterMarker, fun s hm => by simp only [process, hm, hb, if_true, execMrk]⟩
    · exact ⟨_, .append b, fun s hm => by simp only [process, hm, hb, if_false, execData]⟩
  | afterMarker =>
    by_cases hesc : b = Config.codeEscape
    · exact ⟨_, .appendMarker, fun s hm => by simp only [process, hm, hesc, if_true, execEsc]⟩
    by_cases hrst : b = Config.codeRestart
    · exact ⟨_, .restart, fun s hm => by subst hrst; simp only [process, hm]; rfl⟩
    by_cases heor : b = Config.codeComplete
    · exact ⟨_, .complete, fun s hm => by subst heor; simp only [process, hm]; rfl⟩
    by_cases hmm : b = Config.marker
    · exact ⟨_, .appendMarker, fun s hm => by subst hmm; simp only [process, hm]; rfl⟩
    refine ⟨_, .setMode .normal, fun s hm => ?_⟩
    simp only [process, hm, hesc, hrst, heor, hmm, if_false, execSof, execEof, execIgn, ite_self]
    rfl

end Sys2Proof.Machine
end

section
/-! The invariant `Sound` (10_state.md R20 to R29): each named update keeps it, so every instruction does, so every step
does. Only two clauses take an argument of their own: that a running encoder stays inside its stream (R23), and that an
append lands inside BUF (20_memory.md R56). -/

namespace Sys2Proof.Machine

theorem setMode_sound {s : State} (m : Mode) (hs : Sound s) : Sound (setMode m s) := { hs with }

theorem drivePorts_sound {s : State} (o : Outputs) (hs : Sound s) : Sound (drivePorts o s) := { hs with }

theorem beginStep_sound {s : State} (rest : List Ports) (hs : Sound s) : Sound (beginStep rest s) := { hs with }

theorem waitStep_sound {s : State} (hs : Sound s) : Sound (waitStep s) := { hs with }

/-- In a pass no latched response ties LEN down. -/
theorem Sound.not_rspValid {s : State} (hs : Sound s) (hact : s.decActive = true) : s.rspValid ≠ true := by
  simp [hs.one_phase hact]

theorem bufAppend_index_lt {s : State} (hs : Sound s) : (if bufFull s then 0 else s.len) < s.params.cap := by
  have hcap := hs.cap_ge
  have hlen := hs.len_le
  split_ifs with hf
  · omega
  · have : s.len ≠ s.params.cap := fun h => hf (bufFull_eq_true.mpr h)
    omega

theorem bufAppend_sound {s : State} (b : Byte) (hs : Sound s) (hact : s.decActive = true) :
    Sound (bufAppend b s) :=
  { hs with
    buf_wf := Memory.write_wf _ b hs.buf_wf
    buf_within := Memory.write_within b (bufAppend_index_lt hs) hs.buf_within
    len_le := bufAppend_len_le b (by have := hs.cap_ge; omega) hs.len_le
    buf_covers := Memory.covers_write b hs.buf_covers
    valid_success := fun hv => absurd hv (hs.not_rspValid hact) }

theorem restart_sound {s : State} (hs : Sound s) (hact : s.decActive = true) : Sound { s with len := 0 } :=
  { hs with
    len_le := Nat.zero_le _
    valid_success := fun hv => absurd hv (hs.not_rspValid hact) }

theorem latchResponse_sound {s : State} (f : FrameFields) (hs : Sound s) (hact : s.decActive = true) :
    Sound (latchResponse f s) :=
  { hs with
    rspDlen_le := Nat.sub_le_sub_right hs.len_le 5
    valid_success := fun hv => absurd hv (hs.not_rspValid hact) }

/-- Ending a pass with one of the four outcomes of 60_exceptions.md R201. -/
theorem finish_sound {s : State} {st : ResponseState} (hs : Sound s)
    (hst : st = .success ∨ st = .timeout ∨ st = .checksumError ∨ st = .transportError)
    (hlen : st = .success → s.len = s.rspDlen + 5) : Sound (finish st s) :=
  { hs with
    one_phase := fun h => nomatch h
    rspDlen_le := finish_rspDlen_le hs.cap_ge hs.rspDlen_le
    valid_state := fun _ => hst
    valid_success := fun _ h => by
      have h : st = .success := h
      simpa [h] using hlen h }

theorem armPass_sound {s : State} (timeout : Time) (hs : Sound s) : Sound (armPass timeout s) :=
  { hs with
    len_le := Nat.zero_le _
    one_phase := fun _ => rfl
    valid_state := fun h => nomatch h
    valid_success := fun h => nomatch h }

/-- The values of 10_state.md R37 are sound whatever the state was: only R7's bound on CAP is asked for. -/
theorem resetBlock_sound {s : State} (hcap : 5 ≤ s.params.cap) : Sound (resetBlock s) where
  cap_ge := hcap
  buf_wf := Memory.drawn_wf _ _ _
  buf_within := Memory.drawn_within _ _
  len_le := Nat.zero_le _
  buf_covers := Memory.drawn_covers _ _
  req_wf := List.Pairwise.nil
  req_within := fun _ hc => nomatch hc
  reqDlen_le := Nat.le_of_lt_succ (Nat.mod_lt _ (Nat.succ_pos _))
  busy_stream := fun h => nomatch h
  one_phase := fun h => nomatch h
  rspDlen_le := by
    have := Nat.mod_lt (Config.freeRspDlen s.draws) (show 0 < s.params.cap - 4 by omega)
    rw [resetBlock_rspDlen, resetBlock_params]
    omega
  valid_state := fun h => nomatch h
  valid_success := fun h => nomatch h

theorem completeFrame_keeps_sound {s t : State} (hs : Sound s) (hact : s.decActive = true)
    (h : completeFrame s = .next t) : Sound t := by
  have hsn : Sound (setMode .normal s) := setMode_sound .normal hs
  obtain ⟨-, he⟩ | ⟨-, -, he⟩ | ⟨bytes, hlen, -, -, he⟩ | ⟨bytes, -, -, -, he⟩ := completeFrame_cases s <;>
    cases he.symm.trans h
  · exact hsn
  · refine finish_sound (latchResponse_sound _ hsn hact) (by simp) fun _ => ?_
    simp only [latchResponse_len, latchResponse_rspDlen, setMode_len]
    omega
  · exact finish_sound hsn (by simp) (by simp)

theorem SymbolBody.keeps_sound {k : State → Answer} (hk : SymbolBody k) {s t : State} (hs : Sound s)
    (h : inPass k s = .next t) : Sound t := by
  obtain ⟨hact, h⟩ := inPass_next h
  cases hk with
  | append b => cases h; exact bufAppend_sound b hs hact
  | appendMarker => cases h; exact setMode_sound _ (bufAppend_sound _ hs hact)
  | setMode m => cases h; exact setMode_sound m hs
  | restart => cases h; exact setMode_sound _ (restart_sound hs hact)
  | complete => exact completeFrame_keeps_sound hs hact h

theorem execDecStep_keeps_sound {elapsed : Time} {rd : ReadOutcome} {b : Byte} {s t : State} (hs : Sound s)
    (h : execDecStep elapsed rd b s = .next t) : Sound t := by
  obtain ⟨-, ⟨-, -, rfl⟩ | ⟨-, -, rfl⟩ | ⟨-, -, hp⟩ | ⟨-, -, rfl⟩⟩ := execDecStep_next h
  · exact finish_sound hs (by simp) (by simp)
  · exact hs
  · obtain ⟨k, hk, he⟩ := process_eq_inPass s.mode b
    exact hk.keeps_sound hs ((he s rfl).symm.trans hp)
  · exact finish_sound hs (by simp) (by simp)

theorem execDecStart_keeps_sound {timeout : Time} {s t : State} (hs : Sound s)
    (h : execDecStart timeout s = .next t) : Sound t := by
  unfold execDecStart at h
  split_ifs at h
  cases h
  exact armPass_sound timeout hs

/-- A load is taken only while no request is latched, so it changes no stream. -/
theorem execEncLoad_keeps_sound {index : Nat} {b : Byte} {s t : State} (hs : Sound s)
    (h : execEncLoad index b s = .next t) : Sound t := by
  unfold execEncLoad at h
  split_ifs at h with hbusy hindex
  cases h
  exact { hs with
    req_wf := Memory.write_wf index b hs.req_wf
    req_within := Memory.write_within b (Nat.lt_of_not_le hindex) hs.req_within
    busy_stream := fun hb => absurd hb hbusy }

theorem encodeFrame_length_pos (addr : Half) (cmd : Byte) (data : List Byte) :
    0 < (encodeFrame addr cmd data).length := by
  simp [encodeFrame, startSequence]

theorem execEncStart_keeps_sound {addr : Half} {cmd : Byte} {dlen : Nat} {s t : State} (hs : Sound s)
    (h : execEncStart addr cmd dlen s = .next t) : Sound t := by
  obtain ⟨-, he⟩ | ⟨-, -, he⟩ | ⟨-, -, -, he⟩ | ⟨data, -, hdlen, hdata, he⟩ := execEncStart_cases addr cmd dlen s <;>
    cases he.symm.trans h
  exact { hs with
    reqDlen_le := hdlen
    busy_stream := fun _ => ⟨data, hdata, rfl, encodeFrame_length_pos addr cmd data⟩ }

/-- ENC_POS moves past the last byte only in the step that ends the stream. -/
theorem execEncStep_keeps_sound {s t : State} (hs : Sound s) (h : execEncStep s = .next t) : Sound t := by
  obtain ⟨-, he⟩ | ⟨-, -, he⟩ | ⟨_, -, -, -, he⟩ | ⟨stream, b, hbusy, hstream, -, he⟩ := execEncStep_cases s <;>
    cases he.symm.trans h
  obtain ⟨data, hdata, hecrc, hpos⟩ := hs.busy_stream hbusy
  have hlen : encodeFrame s.reqAddr s.reqCmd data = stream := by simpa [requestStream, hdata] using hstream
  exact { hs with
    busy_stream := fun hmore => by
      have hmore : s.encPos + 1 ≠ stream.length := by simpa using hmore
      refine ⟨data, hdata, hecrc, ?_⟩
      rw [hlen] at hpos ⊢
      show s.encPos + 1 < stream.length
      omega }

end Sys2Proof.Machine
end

section
/-! The instructions that own no state (10_state.md R36): whatever they answer, only the output ports can differ. -/

namespace Sys2Proof.Machine

theorem execValGuid_next {s t : State} (h : execValGuid s = .next t) : ∃ o, t = drivePorts o s := by
  obtain ⟨-, h⟩ := withResponse_next h
  split at h
  · split at h <;> cases h
    exact ⟨_, rfl⟩
  · cases h
    exact ⟨_, rfl⟩

theorem execValInfo_next {s t : State} (h : execValInfo s = .next t) : ∃ o, t = drivePorts o s := by
  obtain ⟨-, h⟩ := withResponse_next h
  split at h
  · split at h <;> cases h
    exact ⟨_, rfl⟩
  · cases h
    exact ⟨_, rfl⟩

theorem execValAck_next {s t : State} (h : execValAck s = .next t) : ∃ o, t = drivePorts o s := by
  obtain ⟨-, h⟩ := withResponse_next h
  cases h
  exact ⟨_, rfl⟩

/-- `NOP` and the validator drive ports and do nothing else; the reserved codes give no next state. -/
theorem exec_next_of_nobody {i : Instr} {s t : State} (hi : owner i = .nobody) (h : exec i s = .next t) :
    ∃ o, t = drivePorts o s := by
  cases i with
  | nop => cases h; exact ⟨s.out, rfl⟩
  | valGuid => exact execValGuid_next h
  | valInfo => exact execValInfo_next h
  | valAck => exact execValAck_next h
  | reservedC => cases h
  | reservedD => cases h
  | reservedE => cases h
  | _ => cases hi

end Sys2Proof.Machine
end

section
/-! The invariant along every instruction, and so along every step; and that it holds to begin with. -/

namespace Sys2Proof.Machine

theorem exec_keeps_sound {i : Instr} {s t : State} (hs : Sound s) (h : exec i s = .next t) : Sound t := by
  have nobody (hi : owner i = .nobody) : Sound t := by
    obtain ⟨o, rfl⟩ := exec_next_of_nobody hi h
    exact drivePorts_sound o hs
  cases i with
  | esc => exact SymbolBody.appendMarker.keeps_sound hs h
  | mm => exact SymbolBody.appendMarker.keeps_sound hs h
  | sof => exact (SymbolBody.setMode .normal).keeps_sound hs h
  | eof => exact (SymbolBody.setMode .normal).keeps_sound hs h
  | ign cc => exact (SymbolBody.setMode .normal).keeps_sound hs h
  | mrk => exact (SymbolBody.setMode .afterMarker).keeps_sound hs h
  | rst => exact SymbolBody.restart.keeps_sound hs h
  | eor => exact SymbolBody.complete.keeps_sound hs h
  | data b => exact (SymbolBody.append b).keeps_sound hs h
  | crcInit => cases h; exact { hs with }
  | crcUpdate b => cases h; exact { hs with }
  | crcRead => cases h; exact drivePorts_sound _ hs
  | encLoad index b => exact execEncLoad_keeps_sound hs h
  | encStart addr cmd dlen => exact execEncStart_keeps_sound hs h
  | encStep => exact execEncStep_keeps_sound hs h
  | decStart timeout => exact execDecStart_keeps_sound hs h
  | decStep elapsed rd b => exact execDecStep_keeps_sound hs h
  | reset => cases h; exact resetBlock_sound hs.cap_ge
  | _ => exact nobody rfl

/-- Settles O53: a step waits, or runs one instruction with the ports taken. -/
theorem stepKeepsSound : Obligations.StepKeepsSound := by
  intro s t hs h
  cases hin : s.input with
  | nil =>
    cases (step_of_input_nil hin).symm.trans h
    exact waitStep_sound hs
  | cons p rest =>
    rw [step_of_input_cons hin] at h
    exact exec_keeps_sound (beginStep_sound rest hs) h

/-- Settles O52: the machine after reset holds the values the operation `RESET` gives with draw 0 (log 2), and its CAP is
at least 5. -/
theorem resetIsSound : Obligations.ResetIsSound :=
  resetBlock_sound (s := { State.reset with draws := 0 }) (Nat.le_add_left 5 Config.capExtra)

/-- Settles O46. -/
theorem resetStateValues : Obligations.ResetStateValues :=
  ⟨rfl, rfl, rfl, rfl, rfl, rfl, rfl, rfl⟩

end Sys2Proof.Machine
end

section
/-! STATUS (10_state.md R33): its five flag bits, and the field of RSP_STATE. -/

namespace Sys2Proof.Machine

/-- A flag appended to a word is the word's new bit 0, and moves the others up by one. -/
theorem getLsbD_append_flag {w : Nat} (v : BitVec w) (b : Bool) (i : Nat) :
    (v ++ BitVec.ofBool b).getLsbD i = if i = 0 then b else v.getLsbD (i - 1) := by
  rw [BitVec.getLsbD_append]
  by_cases hi : i = 0 <;> simp [hi]

theorem getLsbD_flags (c : BitVec 3) (o m v a b : Bool) (i : Nat) :
    (c ++ BitVec.ofBool o ++ BitVec.ofBool m ++ BitVec.ofBool v ++ BitVec.ofBool a ++ BitVec.ofBool b).getLsbD i =
      ([b, a, v, m, o][i]?).getD (c.getLsbD (i - 5)) := by
  simp only [getLsbD_append_flag]
  match i with
  | 0 | 1 | 2 | 3 | 4 | i + 5 => rfl

/-- R33's order of the bits: the flags from bit 0 up, then the code of RSP_STATE. -/
theorem status_getLsbD (s : State) (i : Nat) :
    (status s).getLsbD i =
      ([s.encBusy, s.decActive, s.rspValid, modeBit s.mode, s.ovf][i]?).getD (s.rspState.code.getLsbD (i - 5)) :=
  getLsbD_flags ..

theorem modeBit_eq (m : Mode) : modeBit m = decide (m = .afterMarker) := by
  cases m <;> rfl

/-- Bits 7:5 hold the code of RSP_STATE, whichever it is. -/
theorem status_code (s : State) : (status s).extractLsb' 5 3 = s.rspState.code := by
  ext i hi
  rw [BitVec.getElem_extractLsb', status_getLsbD, Nat.add_sub_cancel_left]
  simp [BitVec.getLsbD_eq_getElem hi]

/-- Settles O48. -/
theorem statusBits : Obligations.StatusBits := by
  intro s
  have code (st : ResponseState) (h : s.rspState = st) : (status s).extractLsb' 5 3 = st.code := h ▸ status_code s
  have bit := status_getLsbD s
  exact ⟨bit 0, bit 1, bit 2, (bit 3).trans (modeBit_eq s.mode), bit 4, code .success, code .timeout,
    code .formatError, code .checksumError, code .unexpectedPacketType, code .unsolicitedResponse,
    code .transportError, code .networkError⟩

end Sys2Proof.Machine
end

section
/-! Who may change what (10_state.md R36). `graft o u t` is `t` with the elements of owner `o` taken from `u`. An operation
reads the parameters and its owner's elements only (`exec_graft`), so it works on a state that holds its owner's elements
as it does on any other; ownership and commutation follow. -/

namespace Sys2Proof.Machine

/-- The encoder's elements (10_state.md R22, R23) of `u`, the rest of `t`. -/
def graftEncoder (u t : State) : State :=
  { t with
    reqAddr := u.reqAddr
    reqCmd := u.reqCmd
    reqDlen := u.reqDlen
    reqData := u.reqData
    encBusy := u.encBusy
    encPos := u.encPos
    ecrc := u.ecrc }

/-- The decoder's elements (10_state.md R24 to R29) of `u`, the rest of `t`. The model's counter of free values goes with
them, since besides `RESET` only the end of a pass draws. -/
def graftDecoder (u t : State) : State :=
  { t with
    decActive := u.decActive
    mode := u.mode
    buf := u.buf
    len := u.len
    tmo := u.tmo
    ovf := u.ovf
    rspValid := u.rspValid
    rspState := u.rspState
    rspAddr := u.rspAddr
    rspResult := u.rspResult
    rspDlen := u.rspDlen
    draws := u.draws }

/-- The elements an owner may change, of `u`; the rest of `t`. -/
def graft (o : Owner) (u t : State) : State :=
  match o with
  | .crc => { t with acc := u.acc }
  | .encoder => graftEncoder u t
  | .decoder => graftDecoder u t
  | .nobody => t
  | .everybody => graftEncoder u (graftDecoder u { t with acc := u.acc })

@[simp] theorem graft_self (o : Owner) (s : State) : graft o s s = s := by cases o <;> rfl

@[simp] theorem graft_params (o : Owner) (u t : State) : (graft o u t).params = t.params := by cases o <;> rfl

@[simp] theorem graft_input (o : Owner) (u t : State) : (graft o u t).input = t.input := by cases o <;> rfl

theorem graft_acc {o : Owner} (u t : State) (ho : o ≠ .crc) (he : o ≠ .everybody) : (graft o u t).acc = t.acc := by
  cases o with
  | crc => exact absurd rfl ho
  | everybody => exact absurd rfl he
  | _ => rfl

theorem graft_sameEncoder {o : Owner} (u t : State) (ho : o ≠ .encoder) (he : o ≠ .everybody) :
    SameEncoder t (graft o u t) := by
  cases o with
  | encoder => exact absurd rfl ho
  | everybody => exact absurd rfl he
  | _ => exact ⟨rfl, rfl, rfl, rfl, rfl, rfl, rfl⟩

theorem graft_sameDecoder {o : Owner} (u t : State) (ho : o ≠ .decoder) (he : o ≠ .everybody) :
    SameDecoder t (graft o u t) := by
  cases o with
  | decoder => exact absurd rfl ho
  | everybody => exact absurd rfl he
  | _ => exact ⟨⟨rfl, rfl, rfl, rfl, rfl, rfl⟩, rfl, rfl, rfl, rfl, rfl⟩

/-- The instructions that drive output ports (10_state.md R34). -/
def drivesPorts : Instr → Bool
  | .crcRead | .encStep | .valGuid | .valInfo | .valAck => true
  | _ => false

/-- What an instruction that led to `u` makes of `t`: its owner's elements, and the ports if it drives any. -/
def resultOn (i : Instr) (u t : State) : State :=
  drivePorts (if drivesPorts i then u.out else t.out) (graft (owner i) u t)

/-- An answer with its next state, if it has one, mapped. -/
def mapNext (f : State → State) : Answer → Answer
  | .next s => .next (f s)
  | .fault r => .fault r
  | .refused r => .refused r

@[simp] theorem mapNext_next (f : State → State) (s : State) : mapNext f (.next s) = .next (f s) := rfl
@[simp] theorem mapNext_fault (f : State → State) (r : Fault) : mapNext f (.fault r) = .fault r := rfl
@[simp] theorem mapNext_refused (f : State → State) (r : Refusal) : mapNext f (.refused r) = .refused r := rfl

theorem execEncLoad_graft (index : Nat) (b : Byte) {s t : State} (hp : t.params = s.params) :
    execEncLoad index b (graftEncoder s t) = mapNext (fun u => graftEncoder u t) (execEncLoad index b s) := by
  simp only [execEncLoad, graftEncoder, hp]
  split_ifs <;> rfl

theorem execEncStart_graft (addr : Half) (cmd : Byte) (dlen : Nat) {s t : State} (hp : t.params = s.params) :
    execEncStart addr cmd dlen (graftEncoder s t) =
      mapNext (fun u => graftEncoder u t) (execEncStart addr cmd dlen s) := by
  simp only [execEncStart, graftEncoder, hp]
  split_ifs
  · rfl
  · rfl
  · cases s.reqData.readRange 0 dlen <;> rfl

theorem execEncStep_graft (s t : State) :
    execEncStep (graftEncoder s t) = mapNext (fun u => drivePorts u.out (graftEncoder u t)) (execEncStep s) := by
  have hbusy : (graftEncoder s t).encBusy = s.encBusy := rfl
  have hstream : requestStream (graftEncoder s t) = requestStream s := rfl
  have hpos : (graftEncoder s t).encPos = s.encPos := rfl
  simp only [execEncStep, hbusy, hstream, hpos]
  split_ifs
  · cases requestStream s with
    | none => rfl
    | some stream => cases hb : stream[s.encPos]? <;> simp only [hb] <;> rfl
  · rfl

theorem bufAppend_graft (b : Byte) {s t : State} (hp : t.params = s.params) :
    bufAppend b (graftDecoder s t) = graftDecoder (bufAppend b s) t := by
  cases s
  cases t
  cases hp
  rfl

theorem finish_graft (st : ResponseState) {s t : State} (hp : t.params = s.params) :
    finish st (graftDecoder s t) = graftDecoder (finish st s) t := by
  cases s
  cases t
  cases hp
  rfl

theorem completeFrame_graft {s t : State} (hp : t.params = s.params) :
    completeFrame (graftDecoder s t) = mapNext (fun u => graftDecoder u t) (completeFrame s) := by
  have hlen : (graftDecoder s t).len = s.len := rfl
  have hbuf : (graftDecoder s t).buf = s.buf := rfl
  have hmode : setMode .normal (graftDecoder s t) = graftDecoder (setMode .normal s) t := rfl
  have hlatch (f : FrameFields) : latchResponse f (graftDecoder (setMode .normal s) t) =
    graftDecoder (latchResponse f (setMode .normal s)) t := rfl
  simp only [completeFrame, hlen, hbuf, hmode, hlatch]
  split_ifs
  · rfl
  · cases s.buf.readRange 0 s.len with
    | none => rfl
    | some bytes =>
      dsimp only
      split_ifs
      · exact congrArg _ (finish_graft _ hp)
      · exact congrArg _ (finish_graft _ hp)

theorem SymbolBody.inPass_graft {k : State → Answer} (hk : SymbolBody k) {s t : State} (hp : t.params = s.params) :
    inPass k (graftDecoder s t) = mapNext (fun u => graftDecoder u t) (inPass k s) := by
  cases hact : s.decActive with
  | false => rw [inPass_inactive hact, inPass_inactive (s := graftDecoder s t) hact, mapNext_refused]
  | true =>
    rw [inPass_active hact, inPass_active (s := graftDecoder s t) hact]
    cases hk with
    | append b => exact congrArg _ (bufAppend_graft b hp)
    | appendMarker => exact congrArg (fun u => Host.Outcome.next (Machine.setMode .normal u)) (bufAppend_graft _ hp)
    | setMode m => rfl
    | restart => rfl
    | complete => exact completeFrame_graft hp

theorem execDecStart_graft (timeout : Time) (s t : State) :
    execDecStart timeout (graftDecoder s t) = mapNext (fun u => graftDecoder u t) (execDecStart timeout s) := by
  cases hact : s.decActive <;> simp only [execDecStart, graftDecoder, hact] <;> rfl

theorem execDecStep_graft (elapsed : Time) (rd : ReadOutcome) (b : Byte) {s t : State} (hp : t.params = s.params) :
    execDecStep elapsed rd b (graftDecoder s t) =
      mapNext (fun u => graftDecoder u t) (execDecStep elapsed rd b s) := by
  have hact : (graftDecoder s t).decActive = s.decActive := rfl
  have hlate : deadlinePassed elapsed (graftDecoder s t) = deadlinePassed elapsed s := rfl
  have hprocess : process b (graftDecoder s t) = mapNext (fun u => graftDecoder u t) (process b s) := by
    obtain ⟨k, hk, he⟩ := process_eq_inPass s.mode b
    rw [he s rfl, he (graftDecoder s t) rfl, hk.inPass_graft hp]
  simp only [execDecStep, hact, hlate, hprocess, finish_graft _ hp]
  cases s.decActive with
  | false => rfl
  | true => cases deadlinePassed elapsed s <;> cases rd <;> rfl

theorem resetBlock_graft {s t : State} (hp : t.params = s.params) :
    resetBlock (graft .everybody s t) = graft .everybody (resetBlock s) t := by
  cases s
  cases t
  cases hp
  rfl

/-- An instruction that owns state reads the parameters and its owner's elements only. -/
theorem exec_graft {i : Instr} {s t : State} (hi : owner i ≠ .nobody) (hp : t.params = s.params) :
    exec i (graft (owner i) s t) = mapNext (fun u => resultOn i u t) (exec i s) := by
  cases i with
  | esc => exact SymbolBody.appendMarker.inPass_graft hp
  | mm => exact SymbolBody.appendMarker.inPass_graft hp
  | sof => exact (SymbolBody.setMode .normal).inPass_graft hp
  | eof => exact (SymbolBody.setMode .normal).inPass_graft hp
  | ign cc => exact (SymbolBody.setMode .normal).inPass_graft hp
  | mrk => exact (SymbolBody.setMode .afterMarker).inPass_graft hp
  | rst => exact SymbolBody.restart.inPass_graft hp
  | eor => exact SymbolBody.complete.inPass_graft hp
  | data b => exact (SymbolBody.append b).inPass_graft hp
  | crcInit => rfl
  | crcUpdate b => rfl
  | crcRead => rfl
  | encLoad index b => exact execEncLoad_graft index b hp
  | encStart addr cmd dlen => exact execEncStart_graft addr cmd dlen hp
  | encStep => exact execEncStep_graft s t
  | decStart timeout => exact execDecStart_graft timeout s t
  | decStep elapsed rd b => exact execDecStep_graft elapsed rd b hp
  | reset => exact congrArg Host.Outcome.next (resetBlock_graft hp)
  | _ => exact absurd rfl hi

/-- What an instruction that owns state does to a state, it does to any other with the same parameters that holds its
owner's elements. -/
theorem exec_next_on {i : Instr} {s t u : State} (hi : owner i ≠ .nobody) (hp : t.params = s.params)
    (hg : graft (owner i) s t = t) (h : exec i s = .next u) : exec i t = .next (resultOn i u t) := by
  have := exec_graft hi hp
  rwa [hg, h] at this

theorem exec_next_eq_resultOn {i : Instr} {s u : State} (hi : owner i ≠ .nobody) (h : exec i s = .next u) :
    u = resultOn i u s :=
  Host.Outcome.next.inj (h.symm.trans (exec_next_on hi rfl (graft_self _ s) h))

/-- An instruction changes its owner's elements and the output ports, and nothing else. -/
theorem exec_frame {i : Instr} {s u : State} (h : exec i s = .next u) :
    u = drivePorts u.out (graft (owner i) u s) := by
  by_cases hi : owner i = .nobody
  · obtain ⟨o, rfl⟩ := exec_next_of_nobody hi h
    rw [hi]
    rfl
  · have hon := exec_next_eq_resultOn hi h
    have hout : u.out = if drivesPorts i then u.out else s.out := congrArg State.out hon
    exact hon.trans (congrArg (fun o => drivePorts o (graft (owner i) u s)) hout.symm)

theorem exec_params {i : Instr} {s u : State} (h : exec i s = .next u) : u.params = s.params :=
  (congrArg State.params (exec_frame h)).trans (graft_params _ _ _)

/-- Settles O49: what an instruction changes is its owner's. -/
theorem stateHasOneOwner : Obligations.StateHasOneOwner := by
  intro i s t h
  have hf := exec_frame h
  refine ⟨fun ho he => ?_, fun ho he => ?_, fun ho he => ?_, exec_params h, ?_⟩
  · exact (congrArg State.acc hf).trans (graft_acc t s ho he)
  · rw [hf]
    exact graft_sameEncoder t s ho he
  · rw [hf]
    exact graft_sameDecoder t s ho he
  · exact (congrArg State.input hf).trans (graft_input _ _ _)

end Sys2Proof.Machine
end

section
/-! Operations of two owners commute (10_state.md R36): grafts of different owners do not see each other, and none sees
the output ports. -/

namespace Sys2Proof.Machine

/-- The ports show what was driven last. -/
theorem drivePorts_drivePorts (x y : Outputs) (t : State) : drivePorts x (drivePorts y t) = drivePorts x t := rfl

theorem graft_drivePorts (o : Owner) (x : Outputs) (u t : State) :
    graft o u (drivePorts x t) = drivePorts x (graft o u t) := by
  cases o <;> rfl

/-- The three owners of R36 that have state of their own. -/
def Owner.isUnit (o : Owner) : Prop := o = .crc ∨ o = .encoder ∨ o = .decoder

theorem Owner.isUnit.ne_nobody {o : Owner} (h : o.isUnit) : o ≠ .nobody := by
  obtain rfl | rfl | rfl := h <;> decide

/-- Of the nine pairs, three contradict `hne` and the others write different elements. -/
theorem graft_comm {o p : Owner} (ho : o.isUnit) (hp : p.isUnit) (hne : o ≠ p) (a b t : State) :
    graft o a (graft p b t) = graft p b (graft o a t) := by
  obtain rfl | rfl | rfl := ho <;> obtain rfl | rfl | rfl := hp <;> trivial

/-- An instruction leaves the elements of another owner as they were. -/
theorem graft_exec_next {i : Instr} {o : Owner} {s u : State} (hi : (owner i).isUnit) (ho : o.isUnit)
    (hne : owner i ≠ o) (h : exec i s = .next u) : graft o u s = s := by
  rw [exec_frame h]
  generalize owner i = p at hi hne
  obtain rfl | rfl | rfl := ho <;> obtain rfl | rfl | rfl := hi <;> trivial

/-- Settles O50: each operation finds its owner's elements as if it came first (`exec_next_on`), and the two results are
grafts that commute. -/
theorem ownersInterleaveFreely : Obligations.OwnersInterleaveFreely := by
  intro i j s u v hi hj hne hu hv
  have hup : u.params = s.params := exec_params hu
  have hui : u = resultOn i u s := exec_next_eq_resultOn (Owner.isUnit.ne_nobody hi) hu
  have onJ {t : State} := exec_next_on (t := t) (Owner.isUnit.ne_nobody hj) (h := hv)
  have onI {t : State} := exec_next_on (t := t) (Owner.isUnit.ne_nobody hi) (h := hu)
  have keep (x : Outputs) : graft (owner i) s (drivePorts x (graft (owner j) v s)) =
      drivePorts x (graft (owner j) v s) := by
    rw [graft_drivePorts, graft_comm hi hj hne, graft_self]
  refine ⟨resultOn j v s, resultOn i u (resultOn j v s), _, _, onJ hup.symm (graft_exec_next hi hj hne hu),
    onI (graft_params _ _ _) (keep _), ?_, onJ rfl ?_, rfl, onI (graft_params _ _ _) (keep _),
    (congrArg State.out hui).symm⟩
  · calc drivePorts v.out (resultOn i u (resultOn j v s))
      _ = drivePorts v.out (graft (owner i) u (graft (owner j) v s)) := by
        simp only [resultOn, graft_drivePorts, drivePorts_drivePorts]
      _ = drivePorts v.out (graft (owner j) v (graft (owner i) u s)) := by rw [graft_comm hi hj hne]
      _ = drivePorts v.out (graft (owner j) v (drivePorts u.out (graft (owner i) u s))) := by
        rw [graft_drivePorts, drivePorts_drivePorts]
      _ = drivePorts v.out (graft (owner j) v u) := by rw [← exec_frame hu]
      _ = v := (exec_frame hv).symm
  · exact (graft_drivePorts _ s.out u u).trans (congrArg (drivePorts s.out) (graft_self _ u))

end Sys2Proof.Machine
end

section
/-! Bytes of BUF at LEN and above are unread (10_state.md R25): two states that differ in such bytes only get answers that
differ in such bytes only. The decoder writes an index before LEN passes it, the trigger reads below LEN, and the
validator reads the RSP_DLEN bytes of a latched response, which end at LEN. -/

namespace Sys2Proof.Machine

/-- The same kind of answer for the same reason, the next states alike but for bytes of BUF at LEN and above. -/
inductive AnswersAgree : Answer → Answer → Prop where
  | next {s t : State} (h : AgreeBelowLen s t) : AnswersAgree (.next s) (.next t)
  | fault (r : Fault) : AnswersAgree (.fault r) (.fault r)
  | refused (r : Refusal) : AnswersAgree (.refused r) (.refused r)

/-- The second state is the first with another BUF. -/
theorem AgreeBelowLen.exists_buf {s t : State} (h : AgreeBelowLen s t) :
    ∃ m, t = { s with buf := m } ∧ ∀ i, i < s.len → m.read i = s.buf.read i :=
  ⟨t.buf, h⟩

/-- What does not look at BUF is the same of both states. -/
theorem AgreeBelowLen.apply_eq {α : Type} {s t : State} (h : AgreeBelowLen s t) (f : State → α)
    (hf : ∀ m, f { s with buf := m } = f s) : f t = f s :=
  (congrArg f h.1).trans (hf t.buf)

theorem AgreeBelowLen.readRange_eq {s t : State} (h : AgreeBelowLen s t) {start n : Nat} (hn : start + n ≤ s.len) :
    t.buf.readRange start n = s.buf.readRange start n :=
  Memory.readRange_congr fun k hk => h.2 (start + k) (by omega)

theorem setMode_agree {s t : State} (m : Mode) (h : AgreeBelowLen s t) :
    AgreeBelowLen (setMode m s) (setMode m t) := by
  obtain ⟨_, rfl, hm⟩ := h.exists_buf
  exact ⟨rfl, hm⟩

theorem drivePorts_agree {s t : State} (o : Outputs) (h : AgreeBelowLen s t) :
    AgreeBelowLen (drivePorts o s) (drivePorts o t) := by
  obtain ⟨_, rfl, hm⟩ := h.exists_buf
  exact ⟨rfl, hm⟩

theorem latchResponse_agree {s t : State} (f : FrameFields) (h : AgreeBelowLen s t) :
    AgreeBelowLen (latchResponse f s) (latchResponse f t) := by
  obtain ⟨_, rfl, hm⟩ := h.exists_buf
  exact ⟨rfl, hm⟩

theorem finish_agree {s t : State} (st : ResponseState) (h : AgreeBelowLen s t) :
    AgreeBelowLen (finish st s) (finish st t) := by
  obtain ⟨_, rfl, hm⟩ := h.exists_buf
  exact ⟨rfl, hm⟩

theorem restart_agree {s t : State} (h : AgreeBelowLen s t) :
    AgreeBelowLen { s with len := 0 } { t with len := 0 } := by
  obtain ⟨_, rfl, -⟩ := h.exists_buf
  exact ⟨rfl, fun i hi => absurd hi (Nat.not_lt_zero i)⟩

theorem armPass_agree {s t : State} (timeout : Time) (h : AgreeBelowLen s t) :
    AgreeBelowLen (armPass timeout s) (armPass timeout t) := by
  obtain ⟨_, rfl, -⟩ := h.exists_buf
  exact ⟨rfl, fun i hi => absurd hi (Nat.not_lt_zero i)⟩

theorem resetBlock_agree {s t : State} (h : AgreeBelowLen s t) : AgreeBelowLen (resetBlock s) (resetBlock t) := by
  obtain ⟨_, rfl, -⟩ := h.exists_buf
  exact ⟨rfl, fun _ _ => rfl⟩

/-- The one index that an append brings below LEN is the one it writes. -/
theorem bufAppend_agree {s t : State} (b : Byte) (h : AgreeBelowLen s t) :
    AgreeBelowLen (bufAppend b s) (bufAppend b t) := by
  obtain ⟨m, rfl, hm⟩ := h.exists_buf
  by_cases hfull : s.len = s.params.cap
  · rw [bufAppend_full b hfull, bufAppend_full (s := { s with buf := m }) b hfull]
    refine ⟨rfl, fun i hi => ?_⟩
    have hi : i = 0 := Nat.lt_one_iff.mp hi
    rw [Memory.read_write, Memory.read_write, if_pos hi, if_pos hi]
  · rw [bufAppend_room b hfull, bufAppend_room (s := { s with buf := m }) b hfull]
    refine ⟨rfl, fun i hi => ?_⟩
    rw [Memory.read_write, Memory.read_write]
    split_ifs with hw
    · rfl
    · exact hm i (Nat.lt_of_le_of_ne (Nat.le_of_lt_succ hi) hw)

theorem completeFrame_agree {s t : State} (h : AgreeBelowLen s t) :
    AnswersAgree (completeFrame s) (completeFrame t) := by
  have hlen : t.len = s.len := h.apply_eq State.len fun _ => rfl
  have hread : t.buf.readRange 0 s.len = s.buf.readRange 0 s.len := h.readRange_eq (Nat.zero_add _).le
  have hnormal := setMode_agree .normal h
  simp only [completeFrame, hlen, hread]
  split_ifs
  · exact .next hnormal
  · cases s.buf.readRange 0 s.len with
    | none => exact .fault _
    | some bytes =>
      dsimp only
      split_ifs
      · exact .next (finish_agree _ (latchResponse_agree _ hnormal))
      · exact .next (finish_agree _ hnormal)

theorem SymbolBody.inPass_agree {k : State → Answer} (hk : SymbolBody k) {s t : State} (h : AgreeBelowLen s t) :
    AnswersAgree (inPass k s) (inPass k t) := by
  have hactive : t.decActive = s.decActive := h.apply_eq State.decActive fun _ => rfl
  cases hact : s.decActive with
  | false =>
    rw [inPass_inactive hact, inPass_inactive (hactive.trans hact)]
    exact .refused _
  | true =>
    rw [inPass_active hact, inPass_active (hactive.trans hact)]
    cases hk with
    | append b => exact .next (bufAppend_agree b h)
    | appendMarker => exact .next (setMode_agree _ (bufAppend_agree _ h))
    | setMode m => exact .next (setMode_agree m h)
    | restart => exact .next (setMode_agree _ (restart_agree h))
    | complete => exact completeFrame_agree h

theorem execDecStart_agree {s t : State} (timeout : Time) (h : AgreeBelowLen s t) :
    AnswersAgree (execDecStart timeout s) (execDecStart timeout t) := by
  have hactive : t.decActive = s.decActive := h.apply_eq State.decActive fun _ => rfl
  simp only [execDecStart, hactive]
  split_ifs
  · exact .refused _
  · exact .next (armPass_agree timeout h)

theorem process_agree {s t : State} (b : Byte) (h : AgreeBelowLen s t) :
    AnswersAgree (process b s) (process b t) := by
  obtain ⟨k, hk, he⟩ := process_eq_inPass s.mode b
  rw [he s rfl, he t (h.apply_eq State.mode fun _ => rfl)]
  exact hk.inPass_agree h

theorem execDecStep_agree {s t : State} (elapsed : Time) (rd : ReadOutcome) (b : Byte) (h : AgreeBelowLen s t) :
    AnswersAgree (execDecStep elapsed rd b s) (execDecStep elapsed rd b t) := by
  have hactive : t.decActive = s.decActive := h.apply_eq State.decActive fun _ => rfl
  have hlate : deadlinePassed elapsed t = deadlinePassed elapsed s :=
    h.apply_eq (deadlinePassed elapsed) fun _ => rfl
  have htimeout : AnswersAgree (.next (finish .timeout s)) (.next (finish .timeout t)) := .next (finish_agree _ h)
  simp only [execDecStep, hactive, hlate]
  cases s.decActive with
  | false => exact .refused _
  | true =>
    cases deadlinePassed elapsed s <;> cases rd
    case false.none => exact .next h
    case false.byte => exact process_agree b h
    case false.err => exact .next (finish_agree _ h)
    case false.reserved => exact .refused _
    case true.reserved => exact .refused _
    all_goals exact htimeout

/-- An instruction of the CRC engine or the encoder neither reads BUF nor changes it. -/
theorem exec_agree_of_no_buffer {i : Instr} {s t : State} (hi : owner i = .crc ∨ owner i = .encoder)
    (h : AgreeBelowLen s t) : AnswersAgree (exec i s) (exec i t) := by
  have hno : owner i ≠ .nobody := by obtain hi | hi := hi <;> simp [hi]
  obtain ⟨m, rfl, hm⟩ := h.exists_buf
  have hgraft : graft (owner i) s { s with buf := m } = { s with buf := m } := by
    obtain hi | hi := hi <;> rw [hi] <;> rfl
  have hanswer := exec_graft hno (show ({ s with buf := m } : State).params = s.params from rfl)
  rw [hgraft] at hanswer
  rw [hanswer]
  cases hs : exec i s with
  | fault r => exact .fault r
  | refused r => exact .refused r
  | next u =>
    have hagree : AgreeBelowLen (resultOn i u s) (resultOn i u { s with buf := m }) := by
      unfold resultOn
      obtain hi | hi := hi <;> rw [hi] <;> exact ⟨rfl, hm⟩
    rw [← exec_next_eq_resultOn hno hs] at hagree
    exact .next hagree

theorem withResponse_agree {k : State → Answer} {s t : State} (h : AgreeBelowLen s t)
    (hk : s.rspValid = true → AnswersAgree (k s) (k t)) : AnswersAgree (withResponse k s) (withResponse k t) := by
  have hv : t.rspValid = s.rspValid := h.apply_eq State.rspValid fun _ => rfl
  cases hvalid : s.rspValid with
  | false =>
    rw [withResponse_invalid hvalid, withResponse_invalid (hv.trans hvalid)]
    exact .refused _
  | true =>
    rw [withResponse_valid hvalid, withResponse_valid (hv.trans hvalid)]
    exact hk hvalid

/-- The data of a latched success lies below LEN (10_state.md R28). -/
theorem rspSlice_eq {s t : State} (hs : Sound s) (h : AgreeBelowLen s t) (hvalid : s.rspValid = true)
    (hsucc : s.rspState = .success) {start n : Nat} (hn : start + n ≤ s.rspDlen) :
    rspSlice t start n = rspSlice s start n :=
  h.readRange_eq (by have := hs.valid_success hvalid hsucc; omega)

theorem guidVerdict_accept {s : State} (h : guidVerdict s = .accept) : s.rspState = .success ∧ s.rspDlen = 16 := by
  unfold guidVerdict at h
  split_ifs at h with hsucc hlen
  exact ⟨hsucc, hlen⟩

theorem infoVerdict_accept {s : State} (h : infoVerdict s = .accept) : s.rspState = .success ∧ 54 ≤ s.rspDlen := by
  unfold infoVerdict at h
  split_ifs at h with hcrc hsucc hres hlen
  exact ⟨not_not.mp hsucc, Nat.le_of_not_lt hlen⟩

theorem execValGuid_agree {s t : State} (hs : Sound s) (h : AgreeBelowLen s t) :
    AnswersAgree (execValGuid s) (execValGuid t) := by
  have hverdict : guidVerdict t = guidVerdict s := h.apply_eq guidVerdict fun _ => rfl
  have hcollision : collisionSuspected t = collisionSuspected s := h.apply_eq collisionSuspected fun _ => rfl
  refine withResponse_agree h fun hvalid => ?_
  rw [hverdict, hcollision]
  cases hv : guidVerdict s with
  | accept =>
    obtain ⟨hsucc, hlen⟩ := guidVerdict_accept hv
    rw [rspSlice_eq hs h hvalid hsucc (by omega)]
    cases rspSlice s 0 16 with
    | none => exact .fault _
    | some g => exact .next (drivePorts_agree _ h)
  | _ => exact .next (drivePorts_agree _ h)

theorem execValInfo_agree {s t : State} (hs : Sound s) (h : AgreeBelowLen s t) :
    AnswersAgree (execValInfo s) (execValInfo t) := by
  have hverdict : infoVerdict t = infoVerdict s := h.apply_eq infoVerdict fun _ => rfl
  refine withResponse_agree h fun hvalid => ?_
  rw [hverdict]
  cases hv : infoVerdict s with
  | accept =>
    obtain ⟨hsucc, hlen⟩ := infoVerdict_accept hv
    have hslice (start n : Nat) (hn : start + n ≤ 54) : rspSlice t start n = rspSlice s start n :=
      rspSlice_eq hs h hvalid hsucc (by omega)
    rw [hslice 0 16 (by omega), hslice 16 32 (by omega), hslice 48 6 (by omega)]
    dsimp only
    split
    · exact .next (drivePorts_agree _ h)
    · exact .fault _
  | _ => exact .next (drivePorts_agree _ h)

theorem execValAck_agree {s t : State} (h : AgreeBelowLen s t) : AnswersAgree (execValAck s) (execValAck t) := by
  have hverdict : ackVerdict t = ackVerdict s := h.apply_eq ackVerdict fun _ => rfl
  refine withResponse_agree h fun _ => ?_
  rw [hverdict]
  exact .next (drivePorts_agree _ h)

theorem exec_agree {s t : State} (i : Instr) (hs : Sound s) (h : AgreeBelowLen s t) :
    AnswersAgree (exec i s) (exec i t) := by
  cases i with
  | esc => exact SymbolBody.appendMarker.inPass_agree h
  | mm => exact SymbolBody.appendMarker.inPass_agree h
  | sof => exact (SymbolBody.setMode .normal).inPass_agree h
  | eof => exact (SymbolBody.setMode .normal).inPass_agree h
  | ign cc => exact (SymbolBody.setMode .normal).inPass_agree h
  | mrk => exact (SymbolBody.setMode .afterMarker).inPass_agree h
  | rst => exact SymbolBody.restart.inPass_agree h
  | eor => exact SymbolBody.complete.inPass_agree h
  | data b => exact (SymbolBody.append b).inPass_agree h
  | decStart timeout => exact execDecStart_agree timeout h
  | decStep elapsed rd b => exact execDecStep_agree elapsed rd b h
  | nop => exact .next h
  | valGuid => exact execValGuid_agree hs h
  | valInfo => exact execValInfo_agree hs h
  | valAck => exact execValAck_agree h
  | reservedC => exact .refused _
  | reservedD => exact .refused _
  | reservedE => exact .refused _
  | reset => exact .next (resetBlock_agree h)
  | crcInit => exact exec_agree_of_no_buffer (.inl rfl) h
  | crcUpdate b => exact exec_agree_of_no_buffer (.inl rfl) h
  | crcRead => exact exec_agree_of_no_buffer (.inl rfl) h
  | encLoad index b => exact exec_agree_of_no_buffer (.inr rfl) h
  | encStart addr cmd dlen => exact exec_agree_of_no_buffer (.inr rfl) h
  | encStep => exact exec_agree_of_no_buffer (.inr rfl) h

/-- Settles O33: the two answers agree, whichever of the three outcomes it is. -/
theorem staleBufferBytesAreUnread : Obligations.StaleBufferBytesAreUnread := by
  intro i s t hs h
  have hagree := exec_agree i hs h
  generalize exec i s = a, exec i t = b at hagree
  cases hagree with
  | next h => exact ⟨fun _ he => ⟨_, rfl, by cases he; exact h⟩, fun _ he => (nomatch he), fun _ he => (nomatch he)⟩
  | fault r => exact ⟨fun _ he => (nomatch he), fun _ he => he, fun _ he => (nomatch he)⟩
  | refused r => exact ⟨fun _ he => (nomatch he), fun _ he => (nomatch he), fun _ he => he⟩

end Sys2Proof.Machine
end

section
/-! The encoder and the decoder of wire symbols and host operations undo each other (30_encoding.md R71, R72, R82, R84):
first the two readings of a byte (R77), then the rows of bytes and the table words. -/

namespace Sys2Proof

theorem decodeSymbol_normal_of_ne {b : Byte} (h : b ≠ Config.marker) : decodeSymbol .normal b = .data b := if_neg h

theorem wellFormed_ign_iff {cc : Byte} : WellFormed (.ign cc) = true ↔ cc ∉ namedCodes := by
  simp only [WellFormed, Bool.not_eq_true', List.contains_eq_mem, decide_eq_false_iff_not]

theorem mem_namedCodes {cc : Byte} : cc ∈ namedCodes ↔
    cc = Config.codeEscape ∨ cc = Config.codeStart ∨ cc = Config.codeEnd ∨ cc = Config.codeRestart ∨
      cc = Config.codeComplete ∨ cc = Config.marker := by
  simp only [namedCodes, List.mem_cons, List.not_mem_nil, or_false]

theorem decodeSymbol_afterMarker_of_unnamed {cc : Byte} (h : cc ∉ namedCodes) :
    decodeSymbol .afterMarker cc = .ign cc := by
  simp only [mem_namedCodes, not_or] at h
  obtain ⟨hesc, hsof, heof, hrst, heor, hmm⟩ := h
  simp only [decodeSymbol, hesc, hsof, heof, hrst, heor, hmm, if_false]

/-- A code with a row of its own is never read as `IGN` (R72). -/
theorem encode_decodeSymbol_afterMarker (cc : Byte) :
    encode (decodeSymbol .afterMarker cc) = controlSequence cc ∧
      WellFormed (decodeSymbol .afterMarker cc) = true := by
  by_cases h : cc ∈ namedCodes
  · obtain rfl | rfl | rfl | rfl | rfl | rfl := mem_namedCodes.mp h <;> exact ⟨rfl, rfl⟩
  · rw [decodeSymbol_afterMarker_of_unnamed h]
    exact ⟨rfl, wellFormed_ign_iff.mpr h⟩

theorem encode_decodeSymbol_normal (b : Byte) :
    encode (decodeSymbol .normal b) = .wire [b] ∧ WellFormed (decodeSymbol .normal b) = true := by
  by_cases h : b = Config.marker
  · subst h
    exact ⟨rfl, rfl⟩
  · rw [decodeSymbol_normal_of_ne h]
    exact ⟨rfl, bne_iff_ne.mpr h⟩

theorem decodeWire_pair (m cc : Byte) : decodeWire [m, cc] =
    if m = Config.marker then .ok (decodeSymbol .afterMarker cc) else .error .noMarker := rfl

theorem decode_controlSequence (cc : Byte) :
    decode (controlSequence cc) = .ok (decodeSymbol .afterMarker cc) :=
  (decodeWire_pair Config.marker cc).trans (if_pos rfl)

/-- The rows of bytes that are a symbol: one byte, or the marker and one byte (R70, R71). -/
theorem decodeWire_eq_ok {bytes : List Byte} {i : Instr} (h : decodeWire bytes = .ok i) :
    (∃ b, bytes = [b] ∧ i = decodeSymbol .normal b) ∨
      ∃ cc, bytes = [Config.marker, cc] ∧ i = decodeSymbol .afterMarker cc := by
  match bytes, h with
  | [b], h => exact .inl ⟨b, rfl, (Except.ok.inj h).symm⟩
  | [m, cc], h =>
    rw [decodeWire_pair] at h
    split_ifs at h with hm
    exact .inr ⟨cc, by rw [hm], (Except.ok.inj h).symm⟩

theorem decodeRead_encodeRead (rd : ReadOutcome) : decodeRead (encodeRead rd) = rd := by
  cases rd <;> rfl

theorem decode_encode_decStep (elapsed : Time) (rd : ReadOutcome) (b : Byte) :
    decode (encode (.decStep elapsed rd b)) = .ok (.decStep elapsed rd b) :=
  congrArg (fun r => Except.ok (Instr.decStep elapsed r b)) (decodeRead_encodeRead rd)

/-- Settles O1. Only `DATA` and `IGN` need that they are well-formed; `arg_rd` is the one operand that is coded. -/
theorem decodeOfEncode : Obligations.DecodeOfEncode := by
  intro i hwf
  cases i with
  | data b => exact congrArg Except.ok (decodeSymbol_normal_of_ne (bne_iff_ne.mp hwf))
  | ign cc =>
    exact (decode_controlSequence cc).trans
      (congrArg Except.ok (decodeSymbol_afterMarker_of_unnamed (wellFormed_ign_iff.mp hwf)))
  | decStep elapsed rd b => exact decode_encode_decStep elapsed rd b
  | _ => rfl

/-- Settles O2, by the two rows of bytes that are a symbol. -/
theorem encodeOfDecodedWire : Obligations.EncodeOfDecodedWire := by
  intro bytes i h
  obtain ⟨b, rfl, rfl⟩ | ⟨cc, rfl, rfl⟩ := decodeWire_eq_ok h
  · exact encode_decodeSymbol_normal b
  · exact encode_decodeSymbol_afterMarker cc

theorem decodeTableWord_control {w : Nat} (h : BitVec.ofNat 8 (w / 256) = Config.marker) :
    decodeTableWord 16 w = some (decodeSymbol .afterMarker (BitVec.ofNat 8 w)) := by
  simp [decodeTableWord, presentTableWord, decode, decodeWire, h]

theorem decodeTableWord_byte {w : Nat} (h : 16 ≤ w) :
    decodeTableWord 8 w = some (decodeSymbol .normal (BitVec.ofNat 8 w)) := by
  simp [decodeTableWord, presentTableWord, decode, decodeWire, h.not_gt]

theorem decodeTableWord_op {w : Nat} (h : w < 16) :
    decodeTableWord 8 w = some (decodeOp { op := BitVec.ofNat 4 w }) := by
  simp [decodeTableWord, presentTableWord, decode, h]

/-- Settles O3: each word is read as a control sequence, a single byte or an operation code. -/
theorem writtenWordsDecode : Obligations.WrittenWordsDecode :=
  ⟨decodeTableWord_control rfl, decodeTableWord_control rfl, decodeTableWord_control rfl,
    decodeTableWord_control rfl, decodeTableWord_control rfl,
    decodeTableWord_byte (by decide), decodeTableWord_byte (by decide),
    decodeTableWord_op (by decide), decodeTableWord_op (by decide), decodeTableWord_op (by decide),
    decodeTableWord_op (by decide)⟩

end Sys2Proof
end

section
/-! A received stream (30_encoding.md R76, R77): it can be read piece by piece, and a stuffed byte, read in NORMAL mode,
is a piece that ends in NORMAL mode. -/

namespace Sys2Proof

open Sys2Proof.Machine

theorem decodeStream_append (m : Mode) (as bs : List Byte) :
    decodeStream m (as ++ bs) =
      ((decodeStream m as).1 ++ (decodeStream (decodeStream m as).2 bs).1,
        (decodeStream (decodeStream m as).2 bs).2) := by
  induction as generalizing m with
  | nil => rfl
  | cons a as ih => simp only [List.cons_append, decodeStream, ih]

theorem decodeStream_stuff (b : Byte) :
    decodeStream .normal (stuff b) = (if b = 0x98 then [.mrk, .esc] else [.data b], .normal) := by
  by_cases h : b = Config.marker
  · subst h
    rw [stuff_marker]
    rfl
  · have hlit : b ≠ 0x98 := h
    simp only [stuff_other h, decodeStream, decodeSymbol_normal_of_ne h, modeAfter, h, hlit, if_false]

/-- Settles O4, by induction on the sequence. -/
theorem stuffedStreamDecodes : Obligations.StuffedStreamDecodes := by
  intro bytes
  induction bytes with
  | nil => rfl
  | cons b bytes ih => rw [stuffAll_cons, decodeStream_append, decodeStream_stuff, ih, List.flatMap_cons]

end Sys2Proof
end

section
/-! The operation codes without a state change of their own, `NOP` and the reserved ones (30_encoding.md R83, R84), and a
refused operation at the ports (10_state.md R34). -/

namespace Sys2Proof.Machine

theorem decodeOp_nop {p : Ports} (h : p.op = 0x0) : decodeOp p = .nop := by simp [decodeOp, h]

theorem decodeOp_reserved {p : Ports} (h : p.op = 0xC ∨ p.op = 0xD ∨ p.op = 0xE) :
    decodeOp p = .reservedC ∨ decodeOp p = .reservedD ∨ decodeOp p = .reservedE := by
  obtain h | h | h := h <;> simp [decodeOp, h]

/-- Settles O43. -/
theorem nopResult : Obligations.NopResult := ⟨fun _ => decodeOp_nop, fun _ => rfl⟩

/-- Settles O44: each of the three codes has its own instruction, and none looks at the state. -/
theorem reservedCodesAreRefused : Obligations.ReservedCodesAreRefused := by
  intro s p hop
  obtain h | h | h := decodeOp_reserved hop <;> rw [h] <;> rfl

theorem drive_of_refused {s : State} {r : Refusal} (h : step s = .refused r) :
    drive s = .next (beginStep s.input.tail s, true) := by
  simp only [drive, h]

theorem drive_of_next {s t : State} (h : step s = .next t) : drive s = .next (t, false) := by
  simp only [drive, h]

/-- Settles O47: a refused step is the operation taken from the ports, with the outputs idle. -/
theorem refusedOperationChangesNothing : Obligations.RefusedOperationChangesNothing :=
  fun _ => ⟨fun _ => drive_of_refused, fun _ => drive_of_next⟩

end Sys2Proof.Machine
end

section
/-! The two readings of the CRC sentence (40_crc_engine.md R106). Reading A puts the whole byte into the state before its
rounds, reading B one bit of it per round: the XOR of reading B's pair is reading A's state after every round, and eight
rounds use the byte up. -/

namespace Sys2Proof.Machine

/-- Reading A's state for a state of reading B: the rest of the byte XORed into the low half. -/
def joinByte (v : Half × Byte) : Half := v.1 ^^^ v.2.setWidth 16

theorem crcRounds_eq_iterate (n : Nat) : crcRounds n = crcRound^[n] := by
  induction n with
  | zero => rfl
  | succ n ih => rw [Function.iterate_succ, ← ih]; rfl

theorem joinByte_getLsbD_zero (v : Half × Byte) :
    (joinByte v).getLsbD 0 = (v.1.getLsbD 0 != v.2.getLsbD 0) := by
  simp [joinByte]

theorem joinByte_ushiftRight (v : Half × Byte) : joinByte v >>> 1 = joinByte (v.1 >>> 1, v.2 >>> 1) := by
  have hbyte : v.2.setWidth 16 >>> 1 = (v.2 >>> 1).setWidth 16 := by
    apply BitVec.eq_of_toNat_eq
    simp
  rw [joinByte, BitVec.ushiftRight_xor_distrib, hbyte, joinByte]

/-- A round of either reading tests the same bit, and the XOR of the constant commutes with the XOR of the byte. -/
theorem joinByte_readingBRound : Function.Semiconj joinByte readingBRound crcRound := by
  intro v
  rw [crcRound, joinByte_getLsbD_zero, joinByte_ushiftRight, readingBRound]
  split
  · simp only [joinByte, Config.poly]
    ac_rfl
  · rfl

theorem readingBRound_iterate_snd (n : Nat) (v : Half × Byte) : (readingBRound^[n] v).2 = v.2 >>> n := by
  induction n generalizing v with
  | zero => rfl
  | succ n ih => rw [Function.iterate_succ_apply, ih, readingBRound, ← BitVec.shiftRight_add, Nat.add_comm]

/-- Settles O5: after eight rounds no bit of the byte is left to join. -/
theorem crcReadingsAgree : Obligations.CrcReadingsAgree := by
  intro s b
  have hspent : (readingBRound^[8] (s, b)).2 = 0#8 := by
    rw [readingBRound_iterate_snd]
    exact BitVec.ushiftRight_eq_zero (Nat.le_refl 8)
  calc crcUpdate s b
    _ = crcRound^[8] (joinByte (s, b)) := congrFun (crcRounds_eq_iterate 8) _
    _ = joinByte (readingBRound^[8] (s, b)) := (joinByte_readingBRound.iterate_right 8 _).symm
    _ = crcReadingB s b := by rw [joinByte, hspent, BitVec.setWidth_zero, BitVec.xor_zero, crcReadingB]

end Sys2Proof.Machine
end

section
/-! The operations of the CRC engine (40_crc_engine.md R102 to R104): their codes, the step that each of them makes from
the ports, and the run of a sequence of updates. -/

namespace Sys2Proof.Machine

theorem decodeOp_crcInit {p : Ports} (h : p.op = 0x1) : decodeOp p = .crcInit := by simp [decodeOp, h]

theorem decodeOp_crcUpdate {p : Ports} (h : p.op = 0x2) : decodeOp p = .crcUpdate p.argByte := by simp [decodeOp, h]

theorem decodeOp_crcRead {p : Ports} (h : p.op = 0x3) : decodeOp p = .crcRead := by simp [decodeOp, h]

theorem exec_crcInit (s : State) : exec .crcInit s = .next { s with acc := Config.crcInit } := rfl

theorem exec_crcUpdate (b : Byte) (s : State) :
    exec (.crcUpdate b) s = .next { s with acc := crcUpdate s.acc b } := rfl

theorem exec_crcRead (s : State) : exec .crcRead s = .next (drivePorts { acc := some s.acc } s) := rfl

/-- An operation of the CRC engine is no `DEC.STEP`, so the step runs it as it is decoded. -/
theorem step_of_owner_crc {s : State} {p : Ports} {rest : List Ports} (hin : s.input = p :: rest)
    (hcrc : owner (decodeOp p) = .crc) : step s = exec (decodeOp p) (beginStep rest s) := by
  have hres : resolve p s = decodeOp p := resolve_eq_decodeOp fun elapsed b hop => by
    rw [hop] at hcrc
    cases hcrc
  rw [step_of_input_cons hin, hres]

/-- The state after a step of `CRC.INIT` or `CRC.UPDATE` that makes ACC `a`, with `rest` still presented. -/
def accStep (rest : List Ports) (a : Half) (s : State) : State := beginStep rest { s with acc := a }

@[simp] theorem accStep_acc (rest : List Ports) (a : Half) (s : State) : (accStep rest a s).acc = a := rfl
@[simp] theorem accStep_input (rest : List Ports) (a : Half) (s : State) : (accStep rest a s).input = rest := rfl
@[simp] theorem accStep_accStep (r q : List Ports) (a c : Half) (s : State) :
    accStep r a (accStep q c s) = accStep r a s := rfl

theorem accStep_sameEncoder (rest : List Ports) (a : Half) (s : State) : SameEncoder s (accStep rest a s) :=
  ⟨rfl, rfl, rfl, rfl, rfl, rfl, rfl⟩

theorem accStep_sameDecoder (rest : List Ports) (a : Half) (s : State) : SameDecoder s (accStep rest a s) :=
  ⟨⟨rfl, rfl, rfl, rfl, rfl, rfl⟩, ⟨rfl, rfl, rfl, rfl, rfl⟩⟩

theorem step_crcInit {s : State} {p : Ports} {rest : List Ports} (hin : s.input = p :: rest) (hop : p.op = 0x1) :
    step s = .next (accStep rest Config.crcInit s) := by
  have hdec := decodeOp_crcInit hop
  rw [step_of_owner_crc hin (by rw [hdec]; rfl), hdec, exec_crcInit]
  rfl

theorem step_crcUpdate {s : State} {p : Ports} {rest : List Ports} (hin : s.input = p :: rest) (hop : p.op = 0x2) :
    step s = .next (accStep rest (crcUpdate s.acc p.argByte) s) := by
  have hdec := decodeOp_crcUpdate hop
  rw [step_of_owner_crc hin (by rw [hdec]; rfl), hdec, exec_crcUpdate]
  rfl

theorem step_crcRead {s : State} {p : Ports} {rest : List Ports} (hin : s.input = p :: rest) (hop : p.op = 0x3) :
    step s = .next (drivePorts { acc := some s.acc } (accStep rest s.acc s)) := by
  have hdec := decodeOp_crcRead hop
  rw [step_of_owner_crc hin (by rw [hdec]; rfl), hdec, exec_crcRead]
  rfl

/-- A sequence of updates folds its bytes into ACC and takes nothing but its own operations from the ports. -/
theorem runSteps_crcUpdates (bytes : List Byte) (rest : List Ports) (a : Half) (s : State) :
    runSteps bytes.length
        (accStep ((bytes.map fun b => ({ op := 0x2, argByte := b } : Ports)) ++ rest) a s) =
      .next (accStep rest (bytes.foldl crcUpdate a) s) := by
  induction bytes generalizing a with
  | nil => rfl
  | cons b bytes ih =>
    rw [List.map_cons, List.cons_append, List.length_cons,
      runSteps_succ _ (step_crcUpdate (accStep_input ..) rfl), accStep_acc, accStep_accStep, ih, List.foldl_cons]

/-- The run of R104: `CRC.INIT`, one update with each byte, `CRC.READ`. -/
theorem runSteps_crcPass {s : State} {bytes : List Byte}
    (hin : s.input =
      ({ op := 0x1 } : Ports) :: (bytes.map fun b => ({ op := 0x2, argByte := b } : Ports)) ++ [{ op := 0x3 }]) :
    runSteps (bytes.length + 2) s =
      .next (drivePorts { acc := some (crcCompute bytes) } (accStep [] (crcCompute bytes) s)) := by
  rw [List.cons_append] at hin
  rw [runSteps_succ _ (step_crcInit hin rfl), runSteps_add 1 (runSteps_crcUpdates ..),
    runSteps_succ _ (step_crcRead (accStep_input ..) rfl), accStep_acc, accStep_accStep, runSteps_zero, crcCompute]

/-- Settles O6. -/
theorem crcInitAndUpdateResult : Obligations.CrcInitAndUpdateResult :=
  fun s _ b => ⟨decodeOp_crcInit, exec_crcInit s, decodeOp_crcUpdate, exec_crcUpdate b s⟩

/-- Settles O7: the pass is `runSteps_crcPass`, and its last state differs from the first in ACC and the ports only. -/
theorem incrementalCrcRead : Obligations.IncrementalCrcRead := by
  refine ⟨fun _ => decodeOp_crcRead, exec_crcRead, fun s bytes hin => ⟨_, runSteps_crcPass hin, rfl, rfl, ?_, ?_⟩⟩
  · exact accStep_sameEncoder [] (crcCompute bytes) s
  · exact accStep_sameDecoder [] (crcCompute bytes) s

end Sys2Proof.Machine
end


section
/-! The operations of the frame encoder (41_frame_encoder.md R122 to R124): what an accepted one makes of the state, and
which ones the block turns away. -/

namespace Sys2Proof.Machine

/-- A request whose bytes are at their indexes from 0 on is read as a whole. -/
theorem Memory.readRange_zero_of_read {m : Memory} {bytes : List Byte}
    (h : ∀ k, k < bytes.length → m.read k = bytes[k]?) : m.readRange 0 bytes.length = some bytes :=
  Memory.readRange_eq_some.mpr ⟨rfl, by simpa only [Nat.zero_add] using h⟩

/-- One missing byte makes a range unreadable. -/
theorem Memory.readRange_eq_none {m : Memory} {start n i : Nat} (hi : i < n) (hnone : m.read (start + i) = none) :
    m.readRange start n = none := by
  rw [Option.eq_none_iff_forall_ne_some]
  intro bytes hread
  obtain ⟨rfl, hbytes⟩ := Memory.readRange_eq_some.mp hread
  have := hbytes i hi
  simp [hnone, List.getElem?_eq_getElem hi] at this

theorem exec_encLoad {s : State} {index : Nat} (b : Byte) (hidle : s.encBusy = false)
    (hindex : index < s.params.maxDlen) :
    exec (.encLoad index b) s = .next { s with reqData := s.reqData.write index b } :=
  (if_neg (by simp [hidle])).trans (if_neg (Nat.not_le_of_lt hindex))

theorem exec_encLoad_busy {s : State} (index : Nat) (b : Byte) (hbusy : s.encBusy = true) :
    exec (.encLoad index b) s = .refused .encBusy := if_pos hbusy

theorem exec_encLoad_outOfRange {s : State} {index : Nat} (b : Byte) (hidle : s.encBusy = false)
    (hindex : s.params.maxDlen ≤ index) : exec (.encLoad index b) s = .refused .indexOutOfRange :=
  (if_neg (by simp [hidle])).trans (if_pos hindex)

theorem exec_encStart {s : State} (addr : Half) (cmd : Byte) {data : List Byte} (hidle : s.encBusy = false)
    (hfit : data.length ≤ s.params.maxDlen) (hloaded : s.reqData.readRange 0 data.length = some data) :
    exec (.encStart addr cmd data.length) s = .next { s with
      reqAddr := addr
      reqCmd := cmd
      reqDlen := data.length
      ecrc := crcCompute (payload addr cmd data)
      encPos := 0
      encBusy := true } := by
  obtain ⟨hbusy, -⟩ | ⟨-, hlong, -⟩ | ⟨-, -, hnone, -⟩ | ⟨data', -, -, hread, he⟩ :=
    execEncStart_cases addr cmd data.length s
  · cases hidle.symm.trans hbusy
  · omega
  · cases hloaded.symm.trans hnone
  · cases hloaded.symm.trans hread
    exact he

theorem exec_encStart_busy {s : State} (addr : Half) (cmd : Byte) (dlen : Nat) (hbusy : s.encBusy = true) :
    exec (.encStart addr cmd dlen) s = .refused .encBusy := if_pos hbusy

theorem exec_encStart_tooLong {s : State} (addr : Half) (cmd : Byte) {dlen : Nat} (hidle : s.encBusy = false)
    (hlong : s.params.maxDlen < dlen) : exec (.encStart addr cmd dlen) s = .refused .dataTooLong :=
  (if_neg (by simp [hidle])).trans (if_pos hlong)

theorem exec_encStart_unwritten {s : State} (addr : Half) (cmd : Byte) {dlen : Nat} (hidle : s.encBusy = false)
    (hfit : dlen ≤ s.params.maxDlen) (hnone : s.reqData.readRange 0 dlen = none) :
    exec (.encStart addr cmd dlen) s = .fault .unwrittenReqData := by
  obtain ⟨hbusy, -⟩ | ⟨-, hlong, -⟩ | ⟨-, -, -, he⟩ | ⟨data, -, -, hread, -⟩ :=
    execEncStart_cases addr cmd dlen s
  · cases hidle.symm.trans hbusy
  · omega
  · exact he
  · cases hnone.symm.trans hread

theorem exec_encStep_idle {s : State} (hidle : s.encBusy = false) : exec .encStep s = .refused .encIdle :=
  if_neg (by simp [hidle])

theorem exec_encStep {s : State} {stream : List Byte} {b : Byte} (hbusy : s.encBusy = true)
    (hstream : requestStream s = some stream) (hb : stream[s.encPos]? = some b) :
    exec .encStep s = .next { s with
      out := { tx := some ⟨b, decide (s.encPos + 1 = stream.length)⟩ }
      encPos := s.encPos + 1
      encBusy := decide (s.encPos + 1 ≠ stream.length) } := by
  obtain ⟨hidle, -⟩ | ⟨-, hnone, -⟩ | ⟨stream', -, hs, hend, -⟩ | ⟨stream', b', -, hs, hb', he⟩ :=
    execEncStep_cases s
  · cases hbusy.symm.trans hidle
  · cases hstream.symm.trans hnone
  · cases hstream.symm.trans hs
    cases hb.symm.trans (List.getElem?_eq_none hend)
  · cases hstream.symm.trans hs
    cases hb.symm.trans hb'
    rw [decide_not, ← beq_eq_decide]
    exact he

/-- The stream of the latched request, from the bytes REQ_DATA holds (R123). -/
theorem requestStream_eq {s : State} {data : List Byte} (hlen : data.length = s.reqDlen)
    (hloaded : s.reqData.readRange 0 data.length = some data) :
    requestStream s = some (encodeFrame s.reqAddr s.reqCmd data) := by
  rw [requestStream, ← hlen, hloaded, Option.map_some]

/-- Settles O9. -/
theorem encLoadResult : Obligations.EncLoadResult := by
  intro s index b hidle hindex
  refine ⟨_, exec_encLoad b hidle hindex, ?_, fun j hj => ?_⟩
  · rw [Memory.read_write, if_pos rfl]
  · rw [Memory.read_write, if_neg hj]

/-- Settles O10. -/
theorem encStartResult : Obligations.EncStartResult :=
  fun _ addr cmd _ hidle hfit hread => exec_encStart addr cmd hidle hfit (Memory.readRange_zero_of_read hread)

/-- Settles O11. -/
theorem encStepResult : Obligations.EncStepResult :=
  fun _ _ _ hbusy hlen hread hb =>
    exec_encStep hbusy (requestStream_eq hlen (Memory.readRange_zero_of_read hread)) hb

/-- Settles O12. -/
theorem encoderTurnsAway : Obligations.EncoderTurnsAway :=
  fun _ index dlen b cmd addr =>
    ⟨fun hbusy => ⟨exec_encLoad_busy index b hbusy, exec_encStart_busy addr cmd dlen hbusy⟩,
      fun hidle => ⟨exec_encLoad_outOfRange b hidle, exec_encStart_tooLong addr cmd hidle, exec_encStep_idle hidle⟩⟩

/-- Settles O13. -/
theorem unwrittenRequestDataFaults : Obligations.UnwrittenRequestDataFaults := by
  intro s addr cmd dlen i hidle hfit hi hnone
  refine exec_encStart_unwritten addr cmd hidle hfit (Memory.readRange_eq_none hi ?_)
  rwa [Nat.zero_add]

end Sys2Proof.Machine
end

section
/-! The shape of an encoded frame (41_frame_encoder.md R121, R127): what byte-stuffing adds to the length, and that in a
frame the marker only ever begins a control sequence. -/

namespace Sys2Proof.Machine

/-- The payload and its checksum are stuffed as one sequence. -/
theorem encodeFrame_eq (addr : Half) (cmd : Byte) (data : List Byte) :
    encodeFrame addr cmd data =
      startSequence ++ stuffAll (payload addr cmd data ++ halfBytes (crcCompute (payload addr cmd data))) ++
        endSequence := by
  rw [encodeFrame, stuffAll_append, List.append_assoc startSequence]

/-- Stuffing adds one byte for each marker. -/
theorem stuffAll_length (bytes : List Byte) : (stuffAll bytes).length = bytes.length + bytes.count Config.marker := by
  induction bytes with
  | nil => rfl
  | cons b bytes ih =>
    rw [stuffAll_cons, List.length_append, ih, List.length_cons]
    by_cases hb : b = Config.marker
    · rw [hb, stuff_marker, List.count_cons_self, List.length_cons, List.length_singleton]
      omega
    · rw [stuff_other hb, List.count_cons_of_ne hb, List.length_singleton]
      omega

theorem encodeFrame_length (addr : Half) (cmd : Byte) (data : List Byte) :
    (encodeFrame addr cmd data).length =
      data.length + 11 +
        (payload addr cmd data ++ halfBytes (crcCompute (payload addr cmd data))).count Config.marker := by
  rw [encodeFrame_eq, List.length_append, List.length_append, stuffAll_length, List.length_append, payload_length,
    halfBytes_length]
  simp only [startSequence, endSequence, List.length_cons, List.length_nil]
  omega

/-- At most every byte of payload and checksum is a marker. -/
theorem encodeFrame_length_le (addr : Half) (cmd : Byte) (data : List Byte) :
    (encodeFrame addr cmd data).length ≤ 2 * data.length + 16 := by
  have hcount : (payload addr cmd data ++ halfBytes (crcCompute (payload addr cmd data))).count Config.marker ≤
      data.length + 3 + 2 := by
    simpa using List.count_le_length (a := Config.marker)
      (l := payload addr cmd data ++ halfBytes (crcCompute (payload addr cmd data)))
  rw [encodeFrame_length]
  omega

/-- A sequence in which every marker stands before an escape, start or end code, which it shares with no other marker. -/
inductive MarkersPaired : List Byte → Prop where
  | nil : MarkersPaired []
  | plain {b : Byte} {bytes : List Byte} (hb : b ≠ Config.marker) (h : MarkersPaired bytes) : MarkersPaired (b :: bytes)
  | control {cc : Byte} {bytes : List Byte}
      (hcc : cc = Config.codeEscape ∨ cc = Config.codeStart ∨ cc = Config.codeEnd) (h : MarkersPaired bytes) :
      MarkersPaired (Config.marker :: cc :: bytes)

theorem MarkersPaired.append {as bs : List Byte} (ha : MarkersPaired as) (hb : MarkersPaired bs) :
    MarkersPaired (as ++ bs) := by
  induction ha with
  | nil => exact hb
  | plain hne _ ih => exact .plain hne ih
  | control hcc _ ih => exact .control hcc ih

/-- What stands after a marker. -/
theorem MarkersPaired.getElem?_succ {bytes : List Byte} (h : MarkersPaired bytes) {i : Nat}
    (hi : bytes[i]? = some Config.marker) :
    bytes[i + 1]? = some Config.codeEscape ∨ bytes[i + 1]? = some Config.codeStart ∨
      bytes[i + 1]? = some Config.codeEnd := by
  induction h generalizing i with
  | nil => cases hi
  | plain hb _ ih =>
    cases i with
    | zero => exact absurd (Option.some.inj hi) hb
    | succ i => exact ih hi
  | control hcc _ ih =>
    match i, hi with
    | 0, _ => exact hcc.imp (congrArg some) (Or.imp (congrArg some) (congrArg some))
    | 1, hi =>
      obtain rfl | rfl | rfl := hcc <;> cases hi
    | i + 2, hi => exact ih hi

theorem markersPaired_stuff (b : Byte) : MarkersPaired (stuff b) := by
  by_cases hb : b = Config.marker
  · rw [hb, stuff_marker]
    exact .control (.inl rfl) .nil
  · rw [stuff_other hb]
    exact .plain hb .nil

theorem markersPaired_stuffAll (bytes : List Byte) : MarkersPaired (stuffAll bytes) := by
  induction bytes with
  | nil => exact .nil
  | cons b bytes ih =>
    rw [stuffAll_cons]
    exact (markersPaired_stuff b).append ih

theorem markersPaired_startSequence : MarkersPaired startSequence :=
  .plain (by decide) (.control (.inr (.inl rfl)) .nil)

theorem markersPaired_endSequence : MarkersPaired endSequence :=
  .control (.inr (.inr rfl)) (.plain (by decide) .nil)

theorem markersPaired_encodeFrame (addr : Half) (cmd : Byte) (data : List Byte) :
    MarkersPaired (encodeFrame addr cmd data) := by
  rw [encodeFrame_eq]
  exact (markersPaired_startSequence.append (markersPaired_stuffAll _)).append markersPaired_endSequence

/-- Settles O14. -/
theorem encodedFrameShape : Obligations.EncodedFrameShape := by
  intro addr cmd data
  have hlength := encodeFrame_length addr cmd data
  exact ⟨encodeFrame_eq addr cmd data, hlength, by omega, encodeFrame_length_le addr cmd data,
    fun _ => (markersPaired_encodeFrame addr cmd data).getElem?_succ⟩

end Sys2Proof.Machine
end

section
/-! The pass that encodes a request (41_frame_encoder.md R122 to R124, 70_reset_and_hazards.md R232): the step each
encoder operation makes from the ports, the run of the loads, and the run of the `ENC.STEP`s. -/

namespace Sys2Proof.Machine

theorem decodeOp_encLoad {p : Ports} (h : p.op = 0x4) : decodeOp p = .encLoad p.argIndex p.argByte := by
  simp [decodeOp, h]

theorem decodeOp_encStart {p : Ports} (h : p.op = 0x5) : decodeOp p = .encStart p.argAddr p.argCmd p.argDlen := by
  simp [decodeOp, h]

theorem decodeOp_encStep {p : Ports} (h : p.op = 0x6) : decodeOp p = .encStep := by simp [decodeOp, h]

/-- An operation of another owner than the decoder is no `DEC.STEP`, so the step runs it as it is decoded. -/
theorem step_of_owner_ne_decoder {s : State} {p : Ports} {rest : List Ports} (hin : s.input = p :: rest)
    (howner : owner (decodeOp p) ≠ .decoder) : step s = exec (decodeOp p) (beginStep rest s) := by
  have hres : resolve p s = decodeOp p := resolve_eq_decodeOp fun elapsed b hop => by
    rw [hop] at howner
    exact absurd rfl howner
  rw [step_of_input_cons hin, hres]

/-- No step reads what the output ports show (43_validator.md R187). -/
theorem step_drivePorts (o : Outputs) (s : State) : step (drivePorts o s) = step s := by
  cases hin : s.input with
  | nil =>
    rw [step_of_input_nil hin, step_of_input_nil (s := drivePorts o s) hin]
    rfl
  | cons p rest =>
    rw [step_of_input_cons hin, step_of_input_cons (s := drivePorts o s) hin]
    rfl

theorem runSteps_succ_drivePorts (k : Nat) (o : Outputs) (s : State) :
    runSteps (k + 1) (drivePorts o s) = runSteps (k + 1) s := by
  have hstep : Sys2Proof.core.step (drivePorts o s) = Sys2Proof.core.step s := step_drivePorts o s
  exact (coreRun_succ Sys2Proof.core k _).trans (by rw [hstep]; exact (coreRun_succ Sys2Proof.core k s).symm)

/-- The operations of the pass from its `ENC.START` on. -/
def startPorts (r : Request) : List Ports :=
  { op := 0x5, argAddr := r.addr, argCmd := r.cmd, argDlen := r.data.length } ::
    List.replicate (reqStream r).length { op := 0x6 }

theorem encodePorts_eq (r : Request) : encodePorts r = loadPorts 0 r.data ++ startPorts r := by
  rw [encodePorts, List.append_assoc, List.singleton_append, startPorts]

/-- The state `s` with REQ_DATA holding `m`, at the beginning of a step with `rest` still presented. -/
def holding (rest : List Ports) (m : Memory) (s : State) : State := beginStep rest { s with reqData := m }

/-- The state `s` after `ENC.START` of `r` over the bytes of `m` and `k` steps of its stream: the rest of the
`ENC.STEP`s is still presented. -/
def emitting (r : Request) (k : Nat) (m : Memory) (s : State) : State :=
  beginStep (List.replicate ((reqStream r).length - k) { op := 0x6 })
    { s with
      reqAddr := r.addr
      reqCmd := r.cmd
      reqDlen := r.data.length
      reqData := m
      ecrc := crcCompute (payload r.addr r.cmd r.data)
      encPos := k
      encBusy := decide (k ≠ (reqStream r).length) }

theorem emitting_sameDecoder (o : Outputs) (r : Request) (k : Nat) (m : Memory) (s : State) :
    SameDecoder s (drivePorts o (emitting r k m s)) :=
  ⟨⟨rfl, rfl, rfl, rfl, rfl, rfl⟩, rfl, rfl, rfl, rfl, rfl⟩

/-- What an `ENC.STEP` drives that emits byte `k` of the stream of `r`. -/
def txAt (r : Request) (k : Nat) (b : Byte) : Outputs := { tx := some ⟨b, decide (k + 1 = (reqStream r).length)⟩ }

theorem step_encLoad {s : State} {p : Ports} {rest : List Ports} (hin : s.input = p :: rest) (hop : p.op = 0x4)
    (hidle : s.encBusy = false) (hindex : p.argIndex < s.params.maxDlen) :
    step s = .next (holding rest (s.reqData.write p.argIndex p.argByte) s) := by
  have hdec := decodeOp_encLoad hop
  rw [step_of_owner_ne_decoder hin (by simp [hdec, owner]), hdec]
  exact exec_encLoad (s := beginStep rest s) p.argByte hidle hindex

/-- The run of the loads: their bytes stand from `index` on, and what stood below `index` still does. -/
theorem runSteps_loadPorts {s : State} (hidle : s.encBusy = false) (data : List Byte) (index : Nat) (rest : List Ports)
    (m : Memory) (hfit : index + data.length ≤ s.params.maxDlen) :
    ∃ m' : Memory, runSteps data.length (holding (loadPorts index data ++ rest) m s) = .next (holding rest m' s) ∧
      m'.readRange index data.length = some data ∧ ∀ j, j < index → m'.read j = m.read j := by
  induction data generalizing index m with
  | nil => exact ⟨m, rfl, rfl, fun _ _ => rfl⟩
  | cons b data ih =>
    rw [List.length_cons] at hfit
    have hindex : index < s.params.maxDlen := by omega
    obtain ⟨m', hrun, hrange, hbelow⟩ := ih (index + 1) (m.write index b) (by omega)
    have hfirst : m'.read index = some b := by
      rw [hbelow index (by omega), Memory.read_write, if_pos rfl]
    refine ⟨m', ?_, ?_, fun j hj => ?_⟩
    · exact (runSteps_succ _ (step_encLoad (s := holding _ m s) rfl rfl hidle hindex)).trans hrun
    · simp only [List.length_cons, Memory.readRange, hfirst, hrange]
    · rw [hbelow j (by omega), Memory.read_write, if_neg (by omega)]

theorem step_encStart {s : State} {r : Request} {m : Memory} (hidle : s.encBusy = false)
    (hfit : r.data.length ≤ s.params.maxDlen) (hloaded : m.readRange 0 r.data.length = some r.data) :
    step (holding (startPorts r) m s) = .next (emitting r 0 m s) := by
  have hbusy : decide (0 ≠ (reqStream r).length) = true :=
    decide_eq_true (encodeFrame_length_pos r.addr r.cmd r.data).ne
  rw [startPorts, step_of_owner_ne_decoder rfl (by simp [decodeOp_encStart, owner]), decodeOp_encStart rfl, emitting,
    hbusy]
  exact exec_encStart (s := beginStep _ (holding _ m s)) r.addr r.cmd hidle hfit hloaded

theorem requestStream_beginStep (rest : List Ports) (s : State) :
    requestStream (beginStep rest s) = requestStream s := rfl

theorem emitting_requestStream {r : Request} {m : Memory} (k : Nat) (s : State)
    (hloaded : m.readRange 0 r.data.length = some r.data) :
    requestStream (emitting r k m s) = some (reqStream r) :=
  requestStream_eq (s := emitting r k m s) rfl hloaded

theorem emitting_encBusy (r : Request) (k : Nat) (m : Memory) (s : State) :
    (emitting r k m s).encBusy = decide (k ≠ (reqStream r).length) := rfl

theorem emitting_encPos (r : Request) (k : Nat) (m : Memory) (s : State) : (emitting r k m s).encPos = k := rfl

theorem emitting_input {r : Request} {k : Nat} (m : Memory) (s : State) (hk : k < (reqStream r).length) :
    (emitting r k m s).input = { op := 0x6 } :: List.replicate ((reqStream r).length - (k + 1)) { op := 0x6 } := by
  rw [← List.replicate_succ, ← Nat.sub_sub, Nat.sub_add_cancel (Nat.sub_pos_of_lt hk), emitting, beginStep_input]

theorem step_encStep {s : State} {r : Request} {m : Memory} {k : Nat} {b : Byte}
    (hloaded : m.readRange 0 r.data.length = some r.data) (hb : (reqStream r)[k]? = some b) :
    step (emitting r k m s) = .next (drivePorts (txAt r k b) (emitting r (k + 1) m s)) := by
  obtain ⟨hk, -⟩ := List.getElem?_eq_some_iff.mp hb
  have hbusy : (emitting r k m s).encBusy = true := by
    rw [emitting_encBusy]
    exact decide_eq_true hk.ne
  rw [step_of_owner_ne_decoder (emitting_input m s hk) (by simp [decodeOp_encStep, owner]), decodeOp_encStep rfl]
  exact exec_encStep hbusy ((requestStream_beginStep _ _).trans (emitting_requestStream k s hloaded)) hb

/-- The `ENC.STEP`s emit the stream from byte `j` on: the one that emits byte `j + k` is the last of `k + 1`. -/
theorem runSteps_encSteps {s : State} {r : Request} {m : Memory} {b : Byte}
    (hloaded : m.readRange 0 r.data.length = some r.data) (k j : Nat) (hb : (reqStream r)[j + k]? = some b) :
    runSteps (k + 1) (emitting r j m s) = .next (drivePorts (txAt r (j + k) b) (emitting r (j + k + 1) m s)) := by
  induction k generalizing j with
  | zero => exact runSteps_succ 0 (step_encStep hloaded hb)
  | succ k ih =>
    rw [← Nat.add_assoc, Nat.add_right_comm] at hb
    have hj : j < (reqStream r).length := by
      obtain ⟨hlt, -⟩ := List.getElem?_eq_some_iff.mp hb
      omega
    rw [runSteps_succ _ (step_encStep hloaded (List.getElem?_eq_getElem hj)), runSteps_succ_drivePorts,
      ih (j + 1) hb]
    congr 3 <;> omega

/-- The run that loads a request, starts it and emits its stream up to byte `k`. -/
theorem runSteps_encodePorts {s : State} {r : Request} (hidle : s.encBusy = false)
    (hfit : r.data.length ≤ s.params.maxDlen) (hin : s.input = encodePorts r) :
    ∃ m, ∀ k b, (reqStream r)[k]? = some b →
      runSteps (r.data.length + 1 + (k + 1)) s = .next (drivePorts (txAt r k b) (emitting r (k + 1) m s)) := by
  rw [encodePorts_eq] at hin
  obtain ⟨m, hload, hloaded, -⟩ := runSteps_loadPorts hidle r.data 0 (startPorts r) s.reqData (by omega)
  have hbegin : drivePorts Outputs.idle s = holding (loadPorts 0 r.data ++ startPorts r) s.reqData s := by
    rw [holding, beginStep, ← hin, drivePorts]
  refine ⟨m, fun k b hb => ?_⟩
  calc runSteps (r.data.length + 1 + (k + 1)) s
    _ = runSteps (r.data.length + 1 + (k + 1)) (drivePorts Outputs.idle s) :=
      (runSteps_succ_drivePorts (r.data.length + 1 + k) _ s).symm
    _ = runSteps (k + 1) (emitting r 0 m s) := by
      rw [hbegin, Nat.add_assoc, runSteps_add _ hload, Nat.add_comm 1,
        runSteps_succ _ (step_encStart hidle hfit hloaded)]
    _ = .next (drivePorts (txAt r k b) (emitting r (k + 1) m s)) := by
      rw [runSteps_encSteps hloaded k 0 (by rwa [Nat.zero_add]), Nat.zero_add]

@[simp] theorem loadPorts_length (index : Nat) (data : List Byte) : (loadPorts index data).length = data.length := by
  induction data generalizing index with
  | nil => rfl
  | cons b data ih => rw [loadPorts, List.length_cons, List.length_cons, ih]

theorem encodePorts_length (r : Request) : (encodePorts r).length = r.data.length + 1 + (reqStream r).length := by
  simp only [encodePorts, List.length_append, loadPorts_length, List.length_singleton, List.length_replicate]

/-- Settles O15: every byte by `runSteps_encodePorts`, the end of the pass by its last byte. -/
theorem encodePassEmitsRequest : Obligations.EncodePassEmitsRequest := by
  intro s r hidle hfit hin
  obtain ⟨m, hrun⟩ := runSteps_encodePorts hidle hfit hin
  refine ⟨fun k hk => ⟨_, _, hrun k _ (List.getElem?_eq_getElem hk), List.getElem?_eq_getElem hk, rfl⟩, ?_⟩
  obtain ⟨last, hlast⟩ := Nat.exists_eq_add_one.mpr (encodeFrame_length_pos r.addr r.cmd r.data)
  have hlast : (reqStream r).length = last + 1 := hlast
  have hend := hrun last _ (List.getElem?_eq_getElem (by omega))
  rw [← hlast] at hend
  rw [encodePorts_length]
  refine ⟨_, hend, ?_, ?_, rfl, emitting_sameDecoder _ r _ m s⟩
  · rw [drivePorts_encBusy, emitting_encBusy]
    simp only [ne_eq, not_true_eq_false, decide_false]
  · rw [drivePorts_encPos, emitting_encPos]

end Sys2Proof.Machine
end

section
/-! One wrong byte (42_frame_decoder.md R160, 93 G2): every round of the CRC can be undone, since the constant's bit 15
shows in the result which bit was shifted out (40_crc_engine.md R100), so an update loses neither the state nor the
byte. -/

namespace Sys2Proof.Machine

theorem crcRound_getLsbD (t : Half) (i : Nat) :
    (crcRound t).getLsbD i = (t.getLsbD (i + 1) ^^ (t.getLsbD 0 && Config.poly.getLsbD i)) := by
  unfold crcRound
  split
  case isTrue hbit => rw [hbit, Bool.true_and, BitVec.getLsbD_xor, BitVec.getLsbD_ushiftRight, Nat.add_comm]
  case isFalse hbit =>
    rw [Bool.eq_false_of_not_eq_true hbit, Bool.false_and, Bool.xor_false, BitVec.getLsbD_ushiftRight, Nat.add_comm]

/-- The shift clears bit 15, and the constant sets it. -/
theorem crcRound_getLsbD_top (t : Half) : (crcRound t).getLsbD 15 = t.getLsbD 0 := by
  rw [crcRound_getLsbD, BitVec.getLsbD_of_ge t 16 (Nat.le_refl 16), Bool.false_xor]
  exact Bool.and_true _

theorem crcRound_injective : Function.Injective crcRound := by
  intro t u h
  have hzero : t.getLsbD 0 = u.getLsbD 0 := by rw [← crcRound_getLsbD_top, h, crcRound_getLsbD_top]
  refine BitVec.eq_of_getLsbD_eq fun i _ => ?_
  cases i with
  | zero => exact hzero
  | succ i =>
    have hbit : (crcRound t).getLsbD i = (crcRound u).getLsbD i := by rw [h]
    simpa only [crcRound_getLsbD, hzero, Bool.xor_left_inj] using hbit

theorem crcRounds_injective (n : Nat) : Function.Injective (crcRounds n) := by
  rw [crcRounds_eq_iterate]
  exact crcRound_injective.iterate n

theorem crcUpdate_left_injective (b : Byte) : Function.Injective fun s => crcUpdate s b :=
  fun _ _ h => (BitVec.xor_left_inj _).mp (crcRounds_injective 8 h)

theorem crcUpdate_right_injective (s : Half) : Function.Injective (crcUpdate s) := by
  intro b c h
  have hwide : b.setWidth 16 = c.setWidth 16 := (BitVec.xor_right_inj _).mp (crcRounds_injective 8 h)
  have hnarrow := congrArg (BitVec.setWidth 8) hwide
  rwa [BitVec.setWidth_setWidth_of_le b (by decide), BitVec.setWidth_setWidth_of_le c (by decide)] at hnarrow

/-- Equal bytes keep different states different. -/
theorem foldl_crcUpdate_injective (bytes : List Byte) : Function.Injective fun s => bytes.foldl crcUpdate s := by
  induction bytes with
  | nil => exact Function.injective_id
  | cons b bytes ih => exact ih.comp (crcUpdate_left_injective b)

/-- Settles O8: the wrong byte makes the state wrong, and the bytes after it keep it so. -/
theorem oneByteErrorChangesChecksum : Obligations.OneByteErrorChangesChecksum := by
  intro front back b c hne heq
  rw [crcCompute_append, crcCompute_append (front ++ [c]), crcCompute_snoc, crcCompute_snoc] at heq
  exact hne (crcUpdate_right_injective _ (foldl_crcUpdate_injective back heq))

end Sys2Proof.Machine
end

section
/-! The decoder's host operations (42_frame_decoder.md R141 to R145): one equation for each case of `DEC.START` and
`DEC.STEP`, and what the end of a pass leaves. -/

namespace Sys2Proof.Machine

theorem exec_decStart {s : State} (timeout : Time) (hidle : s.decActive = false) :
    exec (.decStart timeout) s = .next (armPass timeout s) := if_neg (by simp [hidle])

theorem exec_decStart_active {s : State} (timeout : Time) (hact : s.decActive = true) :
    exec (.decStart timeout) s = .refused .passActive := if_pos hact

theorem exec_decStep_noPass {s : State} (elapsed : Time) (rd : ReadOutcome) (b : Byte) (hidle : s.decActive = false) :
    exec (.decStep elapsed rd b) s = .refused .noPass := if_neg (by simp [hidle])

theorem exec_decStep_reserved {s : State} (elapsed : Time) (b : Byte) (hact : s.decActive = true) :
    exec (.decStep elapsed .reserved b) s = .refused .reservedRead := if_pos hact

/-- The deadline comes before the read outcome (R143). -/
theorem exec_decStep_late {s : State} {elapsed : Time} {rd : ReadOutcome} (b : Byte) (hact : s.decActive = true)
    (hrd : rd ≠ .reserved) (hlate : s.tmo.toNat < elapsed.toNat) :
    exec (.decStep elapsed rd b) s = .next (finish .timeout s) := by
  have hpassed := deadlinePassed_eq_true.mpr hlate
  refine (if_pos hact).trans ?_
  cases rd with
  | reserved => exact absurd rfl hrd
  | none => exact if_pos hpassed
  | byte => exact if_pos hpassed
  | err => exact if_pos hpassed

theorem not_deadlinePassed {s : State} {elapsed : Time} (htime : elapsed.toNat ≤ s.tmo.toNat) :
    ¬ deadlinePassed elapsed s = true := by
  simp [htime]

theorem exec_decStep_none {s : State} {elapsed : Time} (b : Byte) (hact : s.decActive = true)
    (htime : elapsed.toNat ≤ s.tmo.toNat) : exec (.decStep elapsed .none b) s = .next s :=
  (if_pos hact).trans (if_neg (not_deadlinePassed htime))

theorem exec_decStep_err {s : State} {elapsed : Time} (b : Byte) (hact : s.decActive = true)
    (htime : elapsed.toNat ≤ s.tmo.toNat) :
    exec (.decStep elapsed .err b) s = .next (finish .transportError s) :=
  (if_pos hact).trans (if_neg (not_deadlinePassed htime))

theorem exec_decStep_byte {s : State} {elapsed : Time} (b : Byte) (hact : s.decActive = true)
    (htime : elapsed.toNat ≤ s.tmo.toNat) : exec (.decStep elapsed .byte b) s = process b s :=
  (if_pos hact).trans (if_neg (not_deadlinePassed htime))

/-- The choice of R155 is the reading of R77. -/
theorem process_eq_exec (b : Byte) (s : State) : process b s = exec (decodeSymbol s.mode b) s := by
  cases hmode : s.mode with
  | normal =>
    simp only [process, hmode, decodeSymbol]
    split_ifs <;> rfl
  | afterMarker =>
    simp only [process, hmode, decodeSymbol]
    split_ifs <;> rfl

/-- The end of a pass writes the response latch and DEC_ACTIVE only (60_exceptions.md R206). -/
theorem finish_leaves (st : ResponseState) (s : State) :
    (finish st s).rspState = st ∧ (finish st s).rspValid = true ∧ (finish st s).decActive = false ∧
    (finish st s).mode = s.mode ∧ (finish st s).buf = s.buf ∧ (finish st s).len = s.len ∧
    (finish st s).tmo = s.tmo ∧ (finish st s).ovf = s.ovf ∧ (finish st s).acc = s.acc ∧
    SameEncoder s (finish st s) ∧ (finish st s).params = s.params ∧ (finish st s).input = s.input ∧
    (finish st s).out = s.out :=
  ⟨rfl, rfl, rfl, rfl, rfl, rfl, rfl, rfl, rfl, ⟨rfl, rfl, rfl, rfl, rfl, rfl, rfl⟩, rfl, rfl, rfl⟩

/-- What a wire symbol does looks at no mode, and always is one of the five bodies (log 11). -/
theorem exec_decodeSymbol_eq_inPass (m : Mode) (b : Byte) :
    ∃ k, SymbolBody k ∧ ∀ s : State, exec (decodeSymbol m b) s = inPass k s := by
  cases m with
  | normal =>
    by_cases hb : b = Config.marker
    · subst hb
      exact ⟨_, .setMode .afterMarker, fun _ => rfl⟩
    · rw [decodeSymbol_normal_of_ne hb]
      exact ⟨_, .append b, fun _ => rfl⟩
  | afterMarker =>
    by_cases hb : b ∈ namedCodes
    · obtain rfl | rfl | rfl | rfl | rfl | rfl := mem_namedCodes.mp hb
      · exact ⟨_, .appendMarker, fun _ => rfl⟩
      · exact ⟨_, .setMode .normal, fun _ => rfl⟩
      · exact ⟨_, .setMode .normal, fun _ => rfl⟩
      · exact ⟨_, .restart, fun _ => rfl⟩
      · exact ⟨_, .complete, fun _ => rfl⟩
      · exact ⟨_, .appendMarker, fun _ => rfl⟩
    · rw [decodeSymbol_afterMarker_of_unnamed hb]
      exact ⟨_, .setMode .normal, fun _ => rfl⟩

/-- Settles O16. -/
theorem decStartResult : Obligations.DecStartResult :=
  fun _ timeout => ⟨exec_decStart timeout, exec_decStart_active timeout⟩

/-- Settles O17. -/
theorem idleReadChangesNothing : Obligations.IdleReadChangesNothing := fun _ _ b => exec_decStep_none b

/-- Settles O18. -/
theorem failedReadEndsPass : Obligations.FailedReadEndsPass :=
  fun s _ b hact htime => ⟨_, exec_decStep_err b hact htime, finish_leaves .transportError s⟩

/-- Settles O19. -/
theorem deadlineEndsPass : Obligations.DeadlineEndsPass :=
  fun s _ _ b hact hrd hlate => ⟨_, exec_decStep_late b hact hrd hlate, finish_leaves .timeout s⟩

/-- Settles O20: every wire symbol asks for a pass first. -/
theorem decoderTurnsAway : Obligations.DecoderTurnsAway := by
  refine ⟨fun _ elapsed b hact => exec_decStep_reserved elapsed b hact, fun s elapsed rd m b hidle => ⟨?_, ?_⟩⟩
  · exact exec_decStep_noPass elapsed rd b hidle
  · obtain ⟨k, -, he⟩ := exec_decodeSymbol_eq_inPass m b
    exact (he s).trans (inPass_inactive hidle)

/-- Settles O21. -/
theorem deliveredByteRunsItsSymbol : Obligations.DeliveredByteRunsItsSymbol :=
  fun s _ b hact htime => (exec_decStep_byte b hact htime).trans (process_eq_exec b s)

end Sys2Proof.Machine
end

section
/-! The wire symbols one by one in an active pass (42_frame_decoder.md R146 to R149, R153, R154): which byte each of them
is, and what it makes of the state. -/

namespace Sys2Proof.Machine

/-- `BufAppend` with its two cases of 20_memory.md R56 told apart field by field. -/
theorem bufAppend_eq (b : Byte) (s : State) :
    bufAppend b s = { s with
      buf := s.buf.write (if s.len = s.params.cap then 0 else s.len) b
      len := (if s.len = s.params.cap then 0 else s.len) + 1
      ovf := s.ovf || decide (s.len = s.params.cap) } := by
  by_cases hfull : s.len = s.params.cap
  · simp only [bufAppend_full b hfull, if_pos hfull, decide_eq_true hfull, Bool.or_true]
  · simp only [bufAppend_room b hfull, if_neg hfull, decide_eq_false hfull, Bool.or_false]

section
variable {s : State} (hact : s.decActive = true)
include hact

theorem exec_data (b : Byte) : exec (.data b) s = .next (bufAppend b s) := if_pos hact

theorem exec_mrk : exec .mrk s = .next (setMode .afterMarker s) := if_pos hact

theorem exec_esc : exec .esc s = .next (setMode .normal (bufAppend Config.marker s)) := if_pos hact

theorem exec_mm : exec .mm s = .next (setMode .normal (bufAppend Config.marker s)) := if_pos hact

theorem exec_rst : exec .rst s = .next (setMode .normal { s with len := 0 }) := if_pos hact

theorem exec_sof : exec .sof s = .next (setMode .normal s) := if_pos hact

theorem exec_eof : exec .eof s = .next (setMode .normal s) := if_pos hact

theorem exec_ign (cc : Byte) : exec (.ign cc) s = .next (setMode .normal s) := if_pos hact

theorem exec_eor : exec .eor s = completeFrame s := if_pos hact

end

/-- The codes that R154 ignores are the encoder's two and the ones without a name. -/
theorem decodeSymbol_afterMarker_ignored {cc : Byte} (hesc : cc ≠ Config.codeEscape) (hrst : cc ≠ Config.codeRestart)
    (heor : cc ≠ Config.codeComplete) (hmm : cc ≠ Config.marker) :
    decodeSymbol .afterMarker cc = .sof ∨ decodeSymbol .afterMarker cc = .eof ∨
      decodeSymbol .afterMarker cc = .ign cc := by
  by_cases hcc : cc ∈ namedCodes
  · obtain h | rfl | rfl | h | h | h := mem_namedCodes.mp hcc
    · exact absurd h hesc
    · exact .inl rfl
    · exact .inr (.inl rfl)
    · exact absurd h hrst
    · exact absurd h heor
    · exact absurd h hmm
  · exact .inr (.inr (decodeSymbol_afterMarker_of_unnamed hcc))

theorem exec_ignored {s : State} (hact : s.decActive = true) {cc : Byte} (hesc : cc ≠ Config.codeEscape)
    (hrst : cc ≠ Config.codeRestart) (heor : cc ≠ Config.codeComplete) (hmm : cc ≠ Config.marker) :
    exec (decodeSymbol .afterMarker cc) s = .next (setMode .normal s) := by
  obtain h | h | h := decodeSymbol_afterMarker_ignored hesc hrst heor hmm <;> rw [h]
  · exact exec_sof hact
  · exact exec_eof hact
  · exact exec_ign hact cc

/-- Settles O22. -/
theorem ordinaryByteIsAppended : Obligations.OrdinaryByteIsAppended := by
  refine ⟨fun _ => decodeSymbol_normal_of_ne, fun s b hact => ⟨_, ?_, Memory.read_write _ _ b⟩⟩
  rw [exec_data hact, bufAppend_eq]

/-- Settles O23. -/
theorem markerSetsMode : Obligations.MarkerSetsMode := ⟨rfl, fun _ => exec_mrk⟩

/-- Settles O24. -/
theorem escapedMarkerIsAppended : Obligations.EscapedMarkerIsAppended := by
  refine ⟨rfl, rfl, fun s hact => ⟨_, ?_, (exec_mm hact).trans (exec_esc hact).symm, Memory.read_write _ _ _⟩⟩
  rw [exec_esc hact, bufAppend_eq]
  rfl

/-- Settles O25. -/
theorem restartEmptiesBuffer : Obligations.RestartEmptiesBuffer := ⟨rfl, fun _ => exec_rst⟩

/-- Settles O26. -/
theorem otherCodesAreIgnored : Obligations.OtherCodesAreIgnored :=
  fun _ cc hact hesc hrst heor hmm =>
    ⟨decodeSymbol_afterMarker_ignored hesc hrst heor hmm, exec_ignored hact hesc hrst heor hmm, exec_sof hact,
      exec_eof hact, exec_ign hact cc⟩

end Sys2Proof.Machine
end

section
/-! The trigger `98 04` (42_frame_decoder.md R150 to R152): the fields of a buffer laid out as 20_memory.md R54 says, and
what a match and a mismatch of the checksums make of the pass. -/

namespace Sys2Proof.Machine

theorem bigEndian_byte (b : Byte) : bigEndian 8 [b] = b := by
  simp [bigEndian]

theorem bigEndian_pair (a b : Byte) : bigEndian 16 [a, b] = a ++ b := by
  rw [BitVec.append_def, BitVec.shiftLeftZeroExtend_eq, BitVec.setWidth'_eq]
  simp [bigEndian]

theorem frameFields_layout (a0 a1 r h l : Byte) (data : List Byte) :
    frameFields ([a0, a1, r] ++ data ++ [h, l]) =
      { fromAddress := a0 ++ a1, result := r, received := h ++ l, covered := [a0, a1, r] ++ data } := by
  simp [frameFields, slice, bigEndian_byte, bigEndian_pair]

section
variable {s : State} {bytes : List Byte} (hact : s.decActive = true) (hlong : 4 < s.len)
  (hread : s.buf.readRange 0 s.len = some bytes)
include hact hlong hread

/-- The trigger over more than 4 readable bytes (R150, R151). -/
theorem exec_eor_complete :
    exec .eor s = .next (if (frameFields bytes).received = crcCompute (frameFields bytes).covered then
      finish .success (latchResponse (frameFields bytes) (setMode .normal s))
    else finish .checksumError (setMode .normal s)) := by
  rw [exec_eor hact]
  obtain ⟨hshort, -⟩ | ⟨-, hnone, -⟩ | ⟨bytes', -, hr, hmatch, he⟩ | ⟨bytes', -, hr, hmatch, he⟩ :=
    completeFrame_cases s
  · omega
  · cases hread.symm.trans hnone
  · cases hread.symm.trans hr
    rw [he, if_pos hmatch]
  · cases hread.symm.trans hr
    rw [he, if_neg hmatch]

theorem exec_eor_match (hmatch : (frameFields bytes).received = crcCompute (frameFields bytes).covered) :
    exec .eor s = .next (finish .success (latchResponse (frameFields bytes) (setMode .normal s))) := by
  rw [exec_eor_complete hact hlong hread, if_pos hmatch]

theorem exec_eor_mismatch (hmismatch : (frameFields bytes).received ≠ crcCompute (frameFields bytes).covered) :
    exec .eor s = .next (finish .checksumError (setMode .normal s)) := by
  rw [exec_eor_complete hact hlong hread, if_neg hmismatch]

end

theorem exec_eor_short {s : State} (hact : s.decActive = true) (hshort : s.len ≤ 4) :
    exec .eor s = .next (setMode .normal s) := (exec_eor hact).trans (if_pos hshort)

section
variable {s : State} {a0 a1 r h l : Byte} {data : List Byte}

/-- A buffer that holds a frame byte by byte can be read as a whole. -/
theorem readRange_frame (hlen : s.len = data.length + 5)
    (hbuf : ∀ k, k < s.len → s.buf.read k = ([a0, a1, r] ++ data ++ [h, l])[k]?) :
    s.buf.readRange 0 s.len = some ([a0, a1, r] ++ data ++ [h, l]) :=
  Memory.readRange_eq_some.mpr ⟨by simp [hlen], by simpa only [Nat.zero_add] using hbuf⟩

/-- The state that a matching frame leaves of `s` (R150). -/
def completed (addr : Half) (res : Byte) (dlen : Nat) (s : State) : State :=
  { s with
    mode := .normal
    rspState := .success
    rspValid := true
    decActive := false
    rspAddr := addr
    rspResult := res
    rspDlen := dlen }

theorem exec_eor_frame (hact : s.decActive = true) (hlen : s.len = data.length + 5)
    (hread : s.buf.readRange 0 s.len = some ([a0, a1, r] ++ data ++ [h, l]))
    (hcrc : crcCompute ([a0, a1, r] ++ data) = h ++ l) :
    exec .eor s = .next (completed (a0 ++ a1) r data.length s) := by
  have hfields := frameFields_layout a0 a1 r h l data
  rw [exec_eor_match hact (by omega) hread (by rw [hfields, hcrc]), hfields, finish_success]
  simp only [latchResponse, setMode, hlen, Nat.add_sub_cancel, completed]

/-- The data of the frame is readable through RSP_DATA (10_state.md R28). -/
theorem rspData_completed (hlen : s.len = data.length + 5)
    (hread : s.buf.readRange 0 s.len = some ([a0, a1, r] ++ data ++ [h, l])) (addr : Half) (res : Byte) {i : Nat}
    (hi : i < data.length) : rspData (completed addr res data.length s) i = data[i]? := by
  obtain ⟨-, hbytes⟩ := Memory.readRange_eq_some.mp hread
  calc rspData (completed addr res data.length s) i
    _ = s.buf.read (3 + i) := if_pos hi
    _ = ([a0, a1, r] ++ (data ++ [h, l]))[3 + i]? := by
      rw [← List.append_assoc, ← hbytes (3 + i) (by omega), Nat.zero_add]
    _ = (data ++ [h, l])[i]? := by rw [Nat.add_comm]; rfl
    _ = data[i]? := List.getElem?_append_left hi

end

/-- Settles O27. -/
theorem matchingFrameSucceeds : Obligations.MatchingFrameSucceeds := by
  intro s a0 a1 r h l data hact hlen hbuf hcrc
  have hread := readRange_frame hlen hbuf
  exact ⟨_, exec_eor_frame hact hlen hread hcrc, rfl, fun _ => rspData_completed hlen hread _ _⟩

/-- Settles O28. -/
theorem mismatchedFrameFails : Obligations.MismatchedFrameFails := by
  intro s a0 a1 r h l data hact hlen hbuf hcrc
  have hmismatch := exec_eor_mismatch hact (by omega) (readRange_frame hlen hbuf)
  rw [frameFields_layout] at hmismatch
  exact ⟨_, hmismatch hcrc.symm, finish_leaves .checksumError (setMode .normal s)⟩

/-- Settles O29. -/
theorem shortTriggerIsIgnored : Obligations.ShortTriggerIsIgnored := ⟨rfl, fun _ => exec_eor_short⟩

end Sys2Proof.Machine
end

section
/-! The table of mode transitions (42_frame_decoder.md R155): in a sound state every byte of an active pass is processed to a
next state, since BUF has every byte the trigger reads; the rows are the equations of the symbols. -/

namespace Sys2Proof.Machine

/-- The bytes below LEN can be read in a sound state (20_memory.md R50). -/
theorem Sound.exists_readRange {s : State} (hs : Sound s) {start n : Nat} (hn : start + n ≤ s.params.cap) :
    ∃ bytes, s.buf.readRange start n = some bytes :=
  Memory.readRange_of_written fun k hk => hs.buf_covers (start + k) (by omega)

theorem completeFrame_exists_next {s : State} (hs : Sound s) : ∃ t, completeFrame s = .next t := by
  obtain ⟨bytes, hread⟩ := hs.exists_readRange (start := 0) (n := s.len) (by have := hs.len_le; omega)
  obtain ⟨-, he⟩ | ⟨-, hnone, -⟩ | ⟨_, -, -, -, he⟩ | ⟨_, -, -, -, he⟩ := completeFrame_cases s
  · exact ⟨_, he⟩
  · cases hread.symm.trans hnone
  · exact ⟨_, he⟩
  · exact ⟨_, he⟩

theorem SymbolBody.exists_next {k : State → Answer} (hk : SymbolBody k) {s : State} (hs : Sound s) :
    ∃ t, k s = .next t := by
  cases hk with
  | complete => exact completeFrame_exists_next hs
  | _ => exact ⟨_, rfl⟩

theorem exec_decodeSymbol_exists_next (m : Mode) (b : Byte) {s : State} (hs : Sound s) (hact : s.decActive = true) :
    ∃ t, exec (decodeSymbol m b) s = .next t := by
  obtain ⟨k, hk, he⟩ := exec_decodeSymbol_eq_inPass m b
  rw [he s, inPass_active hact]
  exact hk.exists_next hs

/-- The row of a frame-complete trigger over more than 4 bytes. -/
theorem exec_eor_row {s t : State} (hs : Sound s) (hact : s.decActive = true) (hlong : 4 < s.len)
    (h : exec .eor s = .next t) :
    t.mode = .normal ∧ t.buf = s.buf ∧ t.len = s.len ∧ t.decActive = false ∧ t.rspValid = true ∧
    ∃ bytes, s.buf.readRange 0 s.len = some bytes ∧
      ((frameFields bytes).received = crcCompute (frameFields bytes).covered → t.rspState = .success) ∧
      ((frameFields bytes).received ≠ crcCompute (frameFields bytes).covered → t.rspState = .checksumError) := by
  obtain ⟨bytes, hread⟩ := hs.exists_readRange (start := 0) (n := s.len) (by have := hs.len_le; omega)
  by_cases hmatch : (frameFields bytes).received = crcCompute (frameFields bytes).covered
  · cases (exec_eor_match hact hlong hread hmatch).symm.trans h
    exact ⟨rfl, rfl, rfl, rfl, rfl, bytes, hread, fun _ => rfl, fun hne => absurd hmatch hne⟩
  · cases (exec_eor_mismatch hact hlong hread hmatch).symm.trans h
    exact ⟨rfl, rfl, rfl, rfl, rfl, bytes, hread, fun heq => absurd heq hmatch, fun _ => rfl⟩

/-- Settles O30: a next state exists, and each row names the symbol whose equation gives it. -/
theorem modeTransitionTable : Obligations.ModeTransitionTable := by
  intro s b hs hact
  obtain ⟨t, ht⟩ := exec_decodeSymbol_exists_next s.mode b hs hact
  have row {m : Mode} {i : Instr} (hi : decodeSymbol m b = i) (hm : s.mode = m) : exec i s = .next t := by
    rw [← hi, ← hm, ht]
  have eq_of_exec {i : Instr} {u : State} (hi : exec i s = .next t) (hu : exec i s = .next u) : t = u :=
    Host.Outcome.next.inj (hi.symm.trans hu)
  refine ⟨t, ht, fun hm hb => ?_, fun hm hb => ?_, fun hm hb => ?_, fun hm hb => ?_, fun hm hb hlong => ?_,
    fun hm hb hshort => ?_, fun hm hb => ?_, fun hm hesc hrst heor hmm => ?_⟩
  · exact eq_of_exec (row (decodeSymbol_normal_of_ne hb) hm) (exec_data hact b)
  · subst hb
    exact eq_of_exec (row rfl hm) (exec_mrk hact)
  · subst hb
    exact eq_of_exec (row rfl hm) (exec_esc hact)
  · subst hb
    exact eq_of_exec (row rfl hm) (exec_rst hact)
  · subst hb
    exact exec_eor_row hs hact hlong (row rfl hm)
  · subst hb
    exact eq_of_exec (row rfl hm) (exec_eor_short hact hshort)
  · subst hb
    exact eq_of_exec (row rfl hm) (exec_mm hact)
  · exact eq_of_exec (row rfl hm) (exec_ignored hact hesc hrst heor hmm)

end Sys2Proof.Machine
end

section
/-! The end of a pass (42_frame_decoder.md R156) and the faults of a sound state (R162, log 5, log 13), over all
instructions. -/

namespace Sys2Proof.Machine

/-- The trigger keeps the pass, or ends it with a response. -/
theorem completeFrame_pass {s t : State} (h : completeFrame s = .next t) :
    t.decActive = s.decActive ∨ t.rspValid = true := by
  obtain ⟨-, he⟩ | ⟨-, -, he⟩ | ⟨_, -, -, -, he⟩ | ⟨_, -, -, -, he⟩ := completeFrame_cases s <;>
    cases he.symm.trans h
  · exact .inl rfl
  · exact .inr rfl
  · exact .inr rfl

theorem SymbolBody.pass {k : State → Answer} (hk : SymbolBody k) {s t : State} (h : k s = .next t) :
    t.decActive = s.decActive ∨ t.rspValid = true := by
  cases hk with
  | complete => exact completeFrame_pass h
  | _ => cases h; exact .inl rfl

theorem execDecStep_pass {elapsed : Time} {rd : ReadOutcome} {b : Byte} {s t : State}
    (h : execDecStep elapsed rd b s = .next t) : t.decActive = s.decActive ∨ t.rspValid = true := by
  obtain ⟨-, ⟨-, -, rfl⟩ | ⟨-, -, rfl⟩ | ⟨-, -, hp⟩ | ⟨-, -, rfl⟩⟩ := execDecStep_next h
  · exact .inr rfl
  · exact .inl rfl
  · obtain ⟨k, hk, he⟩ := process_eq_inPass s.mode b
    obtain ⟨-, hbody⟩ := inPass_next ((he s rfl).symm.trans hp)
    exact hk.pass hbody
  · exact .inr rfl

/-- An instruction of another owner than the decoder keeps the pass (10_state.md R36). -/
theorem exec_keeps_pass {i : Instr} {s t : State} (h : exec i s = .next t) (hdec : owner i ≠ .decoder)
    (hall : owner i ≠ .everybody) : t.decActive = s.decActive := by
  obtain ⟨-, -, hdecoder, -⟩ := stateHasOneOwner i s t h
  obtain ⟨⟨hactive, -⟩, -⟩ := hdecoder hdec hall
  exact hactive

/-- Settles O35: every other instruction keeps DEC_ACTIVE. -/
theorem onlyStepOrResetEndsPass : Obligations.OnlyStepOrResetEndsPass := by
  intro i s t h hact hend
  have ended : t.decActive ≠ s.decActive := by simp [hact, hend]
  have kept {u : State} (hu : exec i s = .next u) (hpass : u.decActive = s.decActive) : False := by
    rw [Host.Outcome.next.inj (h.symm.trans hu)] at ended
    exact ended hpass
  cases i with
  | reset => cases h; exact .inl ⟨rfl, rfl⟩
  | eor =>
    rw [exec_eor hact] at h
    exact .inr ⟨(completeFrame_pass h).resolve_left ended, .inl rfl⟩
  | decStep elapsed rd b =>
    exact .inr ⟨(execDecStep_pass h).resolve_left ended, .inr ⟨elapsed, rd, b, rfl⟩⟩
  | decStart timeout => cases (exec_decStart_active timeout hact).symm.trans h
  | esc => exact (kept (exec_esc hact) rfl).elim
  | mm => exact (kept (exec_mm hact) rfl).elim
  | sof => exact (kept (exec_sof hact) rfl).elim
  | eof => exact (kept (exec_eof hact) rfl).elim
  | ign cc => exact (kept (exec_ign hact cc) rfl).elim
  | rst => exact (kept (exec_rst hact) rfl).elim
  | mrk => exact (kept (exec_mrk hact) rfl).elim
  | data b => exact (kept (exec_data hact b) rfl).elim
  | _ => exact absurd (exec_keeps_pass h nofun nofun) ended

theorem inPass_fault {k : State → Answer} {s : State} {f : Fault} (h : inPass k s = .fault f) : k s = .fault f := by
  cases hact : s.decActive with
  | false => cases (inPass_inactive hact).symm.trans h
  | true => rwa [inPass_active hact] at h

theorem withResponse_fault {k : State → Answer} {s : State} {f : Fault} (h : withResponse k s = .fault f) :
    k s = .fault f := by
  cases hv : s.rspValid with
  | false => cases (withResponse_invalid hv).symm.trans h
  | true => rwa [withResponse_valid hv] at h

section
variable {s : State} (hs : Sound s)
include hs

theorem SymbolBody.noFault {k : State → Answer} (hk : SymbolBody k) : NoFault (inPass k s) := by
  intro f h
  obtain ⟨t, ht⟩ := hk.exists_next hs
  cases ht.symm.trans (inPass_fault h)

theorem process_noFault (b : Byte) : NoFault (process b s) := by
  obtain ⟨k, hk, he⟩ := process_eq_inPass s.mode b
  rw [he s rfl]
  exact hk.noFault hs

theorem execDecStep_noFault (elapsed : Time) (rd : ReadOutcome) (b : Byte) : NoFault (execDecStep elapsed rd b s) := by
  intro f h
  unfold execDecStep at h
  split_ifs at h
  · cases rd <;> cases h
  · cases rd with
    | byte => exact process_noFault hs b f h
    | _ => cases h

/-- A running encoder has its stream and a byte to emit (10_state.md R23). -/
theorem execEncStep_noFault : NoFault (execEncStep s) := by
  intro f h
  obtain ⟨-, he⟩ | ⟨hbusy, hnone, -⟩ | ⟨stream, hbusy, hstream, hend, -⟩ | ⟨_, _, -, -, -, he⟩ := execEncStep_cases s
  · cases he.symm.trans h
  · obtain ⟨data, hdata, -, -⟩ := hs.busy_stream hbusy
    simp [requestStream, hdata] at hnone
  · obtain ⟨data, hdata, -, hpos⟩ := hs.busy_stream hbusy
    have hlen : encodeFrame s.reqAddr s.reqCmd data = stream := by simpa [requestStream, hdata] using hstream
    rw [hlen] at hpos
    omega
  · cases he.symm.trans h

/-- Response data within RSP_DLEN lies inside BUF (10_state.md R28). -/
theorem Sound.exists_rspSlice {start n : Nat} (hn : start + n ≤ s.rspDlen) :
    ∃ bytes, rspSlice s start n = some bytes := by
  have hcap := hs.cap_ge
  have hdlen := hs.rspDlen_le
  exact hs.exists_readRange (by omega)

theorem execValGuid_noFault : NoFault (execValGuid s) := by
  intro f h
  have h := withResponse_fault h
  cases hv : guidVerdict s with
  | accept =>
    obtain ⟨-, hlen⟩ := guidVerdict_accept hv
    obtain ⟨g, hg⟩ := hs.exists_rspSlice (start := 0) (n := 16) (by omega)
    simp [hv, hg] at h
  | _ => simp [hv, judged] at h

theorem execValInfo_noFault : NoFault (execValInfo s) := by
  intro f h
  have h := withResponse_fault h
  cases hv : infoVerdict s with
  | accept =>
    obtain ⟨-, hlen⟩ := infoVerdict_accept hv
    obtain ⟨g, hg⟩ := hs.exists_rspSlice (start := 0) (n := 16) (by omega)
    obtain ⟨name, hname⟩ := hs.exists_rspSlice (start := 16) (n := 32) (by omega)
    obtain ⟨date, hdate⟩ := hs.exists_rspSlice (start := 48) (n := 6) (by omega)
    simp [hv, hg, hname, hdate] at h
  | _ => simp [hv, judged] at h

end

/-- The one cause of an unreadable range: a byte that is not there. -/
theorem Memory.exists_read_eq_none {m : Memory} {n : Nat} (h : m.readRange 0 n = none) :
    ∃ i, i < n ∧ m.read i = none := by
  by_contra hall
  push Not at hall
  obtain ⟨bytes, hread⟩ := Memory.readRange_of_written (m := m) (start := 0) (n := n) fun k hk => by
    rw [Nat.zero_add]
    exact Option.isSome_iff_ne_none.mpr (hall k hk)
  cases h.symm.trans hread

theorem execEncStart_fault {addr : Half} {cmd : Byte} {dlen : Nat} {s : State} {f : Fault}
    (h : execEncStart addr cmd dlen s = .fault f) :
    f = .unwrittenReqData ∧ ∃ i, i < dlen ∧ s.reqData.read i = none := by
  obtain ⟨-, he⟩ | ⟨-, -, he⟩ | ⟨-, -, hnone, he⟩ | ⟨_, -, -, -, he⟩ := execEncStart_cases addr cmd dlen s <;>
    cases he.symm.trans h
  exact ⟨rfl, Memory.exists_read_eq_none hnone⟩

/-- From a sound state only an `ENC.START` over a byte never loaded faults. -/
theorem exec_fault {i : Instr} {s : State} {f : Fault} (hs : Sound s) (h : exec i s = .fault f) :
    f = .unwrittenReqData ∧ ∃ addr cmd dlen, i = .encStart addr cmd dlen ∧
      ∃ k, k < dlen ∧ s.reqData.read k = none := by
  cases i with
  | encStart addr cmd dlen =>
    obtain ⟨hf, hread⟩ := execEncStart_fault h
    exact ⟨hf, addr, cmd, dlen, rfl, hread⟩
  | esc => exact absurd h (SymbolBody.appendMarker.noFault hs f)
  | mm => exact absurd h (SymbolBody.appendMarker.noFault hs f)
  | sof => exact absurd h ((SymbolBody.setMode .normal).noFault hs f)
  | eof => exact absurd h ((SymbolBody.setMode .normal).noFault hs f)
  | ign cc => exact absurd h ((SymbolBody.setMode .normal).noFault hs f)
  | mrk => exact absurd h ((SymbolBody.setMode .afterMarker).noFault hs f)
  | rst => exact absurd h (SymbolBody.restart.noFault hs f)
  | eor => exact absurd h (SymbolBody.complete.noFault hs f)
  | data b => exact absurd h ((SymbolBody.append b).noFault hs f)
  | decStep elapsed rd b => exact absurd h (execDecStep_noFault hs elapsed rd b f)
  | encStep => exact absurd h (execEncStep_noFault hs f)
  | valGuid => exact absurd h (execValGuid_noFault hs f)
  | valInfo => exact absurd h (execValInfo_noFault hs f)
  | valAck => cases withResponse_fault h
  | decStart timeout =>
    simp only [exec, execDecStart] at h
    split_ifs at h
  | encLoad index b =>
    simp only [exec, execEncLoad] at h
    split_ifs at h
  | _ => cases h

/-- The one code whose operation is `ENC.START`. -/
theorem decodeOp_eq_encStart {p : Ports} {addr : Half} {cmd : Byte} {dlen : Nat}
    (h : decodeOp p = .encStart addr cmd dlen) : p.op = 0x5 ∧ p.argDlen = dlen := by
  unfold decodeOp at h
  split at h <;> cases h
  case h_6 hop => exact ⟨BitVec.eq_of_toNat_eq hop, rfl⟩

theorem owner_decodeSymbol (m : Mode) (b : Byte) : owner (decodeSymbol m b) = .decoder := by
  unfold decodeSymbol
  split <;> split_ifs <;> rfl

/-- No wire symbol is an `ENC.START`, so a step that runs one was presented it. -/
theorem resolve_eq_encStart {p : Ports} {s : State} {addr : Half} {cmd : Byte} {dlen : Nat}
    (h : resolve p s = .encStart addr cmd dlen) : decodeOp p = .encStart addr cmd dlen := by
  unfold resolve at h
  split at h
  · split_ifs at h
    cases (owner_decodeSymbol _ _).symm.trans (congrArg owner h)
  · exact h

/-- Settles O54. -/
theorem soundStatesFaultOnlyOnUnwrittenRequest : Obligations.SoundStatesFaultOnlyOnUnwrittenRequest := by
  intro s f hs h
  cases hin : s.input with
  | nil => cases (step_of_input_nil hin).symm.trans h
  | cons p rest =>
    rw [step_of_input_cons hin] at h
    obtain ⟨hf, addr, cmd, dlen, hi, k, hk, hread⟩ := exec_fault (beginStep_sound rest hs) h
    obtain ⟨hop, rfl⟩ := decodeOp_eq_encStart (resolve_eq_encStart hi)
    exact ⟨hf, p, rest, rfl, hop, k, hk, hread⟩

end Sys2Proof.Machine
end

section
/-! Delivered streams (30_encoding.md R86, 42_frame_decoder.md R159): a stuffed byte delivered in NORMAL mode is one append, a
control sequence is its symbol, so that `RSP` completes a pass and the block's own request does not. -/

namespace Sys2Proof.Machine

theorem runSteps_one (s : State) : runSteps 1 s = step s := by
  have h := coreRun_succ Sys2Proof.core 0 s
  have hstep : Sys2Proof.core.step s = step s := rfl
  rw [hstep] at h
  refine h.trans ?_
  cases step s <;> rfl

/-- The two wire bytes of a value, put together again (30_encoding.md R78). -/
theorem hi_append_lo (v : Half) : hi v ++ lo v = v := BitVec.extractLsb'_append_extractLsb' (w := 8) (len := 8)

/-- The appends of a sequence of bytes, in order. -/
def appendAll (bytes : List Byte) (s : State) : State := bytes.foldl (fun s b => bufAppend b s) s

theorem appendAll_append (as bs : List Byte) (s : State) :
    appendAll (as ++ bs) s = appendAll bs (appendAll as s) := List.foldl_append

/-- Appends change BUF, LEN and OVF only. -/
theorem appendAll_frame (bytes : List Byte) (s : State) :
    appendAll bytes s = { s with
      buf := (appendAll bytes s).buf, len := (appendAll bytes s).len, ovf := (appendAll bytes s).ovf } := by
  induction bytes generalizing s with
  | nil => rfl
  | cons b bytes ih => exact ih (bufAppend b s)

theorem appendAll_decActive (bytes : List Byte) (s : State) : (appendAll bytes s).decActive = s.decActive := by
  rw [appendAll_frame]

theorem appendAll_mode (bytes : List Byte) (s : State) : (appendAll bytes s).mode = s.mode := by
  rw [appendAll_frame]

theorem appendAll_sameLatch (bytes : List Byte) (s : State) : SameLatch s (appendAll bytes s) := by
  rw [appendAll_frame]
  exact ⟨rfl, rfl, rfl, rfl, rfl⟩

/-- A write just behind a range makes it one byte longer. -/
theorem Memory.readRange_write_end {m : Memory} {n : Nat} {bytes : List Byte} (b : Byte)
    (h : m.readRange 0 n = some bytes) : (m.write n b).readRange 0 (n + 1) = some (bytes ++ [b]) := by
  obtain ⟨rfl, hread⟩ := Memory.readRange_eq_some.mp h
  refine Memory.readRange_eq_some.mpr ⟨by simp, fun k hk => ?_⟩
  rw [Nat.zero_add, Memory.read_write]
  split_ifs with hlast
  · simp [hlast]
  · have hk : k < bytes.length := by omega
    rw [List.getElem?_append_left hk, ← hread k hk, Nat.zero_add]

/-- While there is room, the appended bytes stand behind the ones the buffer held. -/
theorem appendAll_room {s : State} {front : List Byte} (bytes : List Byte)
    (hfront : s.buf.readRange 0 s.len = some front) (hroom : s.len + bytes.length ≤ s.params.cap) :
    (appendAll bytes s).len = s.len + bytes.length ∧
      (appendAll bytes s).buf.readRange 0 (appendAll bytes s).len = some (front ++ bytes) := by
  induction bytes generalizing s front with
  | nil => exact ⟨rfl, by rwa [List.append_nil]⟩
  | cons b bytes ih =>
    rw [List.length_cons] at hroom
    have hone := bufAppend_room (s := s) b (by omega)
    have hlen : (bufAppend b s).len = s.len + 1 := by rw [hone]
    have hread : (bufAppend b s).buf.readRange 0 (bufAppend b s).len = some (front ++ [b]) := by
      rw [hone]
      exact Memory.readRange_write_end b hfront
    obtain ⟨hl, hr⟩ := ih hread (by rw [hlen, bufAppend_params]; omega)
    refine ⟨?_, ?_⟩
    · rw [List.length_cons, ← Nat.add_assoc, Nat.add_right_comm, ← hlen]
      exact hl
    · rw [List.append_cons]
      exact hr

theorem deliverPorts_append (as bs : List Byte) : deliverPorts (as ++ bs) = deliverPorts as ++ deliverPorts bs :=
  List.map_append

/-- The bytes, delivered one per step from the ports, take the block from `s` to `u`, whatever is presented after them. -/
def Delivers (bytes : List Byte) (s u : State) : Prop :=
  ∀ rest, runSteps bytes.length (beginStep (deliverPorts bytes ++ rest) s) = .next (beginStep rest u)

theorem Delivers.append {as bs : List Byte} {s t u : State} (ha : Delivers as s t) (hb : Delivers bs t u) :
    Delivers (as ++ bs) s u := fun rest => by
  rw [deliverPorts_append, List.append_assoc, List.length_append, runSteps_add _ (ha _), hb rest]

/-- The run from a state to which just these bytes are presented; its first step clears the outputs. -/
theorem Delivers.run {bytes : List Byte} {s u : State} (h : Delivers bytes s u) (hne : 0 < bytes.length)
    (hin : s.input = deliverPorts bytes) : runSteps bytes.length s = .next (beginStep [] u) := by
  obtain ⟨k, hk⟩ := Nat.exists_eq_add_one.mpr hne
  have hbegin : drivePorts Outputs.idle s = beginStep (deliverPorts bytes ++ []) s := by
    rw [List.append_nil, ← hin, beginStep, drivePorts]
  rw [← h [], ← hbegin, hk, runSteps_succ_drivePorts]

/-- A byte at elapsed time 0 is in time whatever the deadline (log 10). -/
theorem step_byteStep {s : State} (hact : s.decActive = true) (b : Byte) (rest : List Ports) :
    step (beginStep (byteStep b :: rest) s) = exec (decodeSymbol s.mode b) (beginStep rest s) := by
  have hres : resolve (byteStep b) (beginStep (byteStep b :: rest) s) = decodeSymbol s.mode b :=
    resolve_eq_decodeSymbol (elapsed := 0) rfl hact (Nat.zero_le _)
  rw [step_of_input_cons (beginStep_input _ s), hres]
  rfl

section
variable {s : State} (hact : s.decActive = true) (hnormal : s.mode = .normal)
include hact hnormal

/-- A control sequence runs its symbol with the mode at AFTER_MARKER (30_encoding.md R77). -/
theorem delivers_control {cc : Byte} {u : State}
    (h : ∀ rest, exec (decodeSymbol .afterMarker cc) (beginStep rest (setMode .afterMarker s)) =
      .next (beginStep rest u)) : Delivers [Config.marker, cc] s u := by
  intro rest
  have hmarker : step (beginStep (byteStep Config.marker :: byteStep cc :: rest) s) =
      .next (beginStep (byteStep cc :: rest) (setMode .afterMarker s)) := by
    rw [step_byteStep hact, hnormal]
    exact exec_mrk (s := beginStep (byteStep cc :: rest) s) hact
  calc runSteps 2 (beginStep (byteStep Config.marker :: byteStep cc :: rest) s)
    _ = runSteps 1 (beginStep (byteStep cc :: rest) (setMode .afterMarker s)) := runSteps_succ 1 hmarker
    _ = step (beginStep (byteStep cc :: rest) (setMode .afterMarker s)) := runSteps_one _
    _ = .next (beginStep rest u) := (step_byteStep (s := setMode .afterMarker s) hact cc rest).trans (h rest)

/-- The encoder's control sequences leave the pass as it is (R154). -/
theorem delivers_ignored {cc : Byte} (hesc : cc ≠ Config.codeEscape) (hrst : cc ≠ Config.codeRestart)
    (heor : cc ≠ Config.codeComplete) (hmm : cc ≠ Config.marker) : Delivers [Config.marker, cc] s s := by
  have hback : Delivers [Config.marker, cc] s (setMode .normal s) := delivers_control hact hnormal fun rest =>
    exec_ignored (s := beginStep rest (setMode .afterMarker s)) hact hesc hrst heor hmm
  rwa [setMode_normal_of_normal hnormal] at hback

/-- The abort leaves an empty buffer (R149). -/
theorem delivers_restart : Delivers [Config.marker, Config.codeRestart] s { s with len := 0 } := by
  have hback : Delivers [Config.marker, Config.codeRestart] s (setMode .normal { s with len := 0 }) :=
    delivers_control hact hnormal fun rest => exec_rst (s := beginStep rest (setMode .afterMarker s)) hact
  rwa [setMode_normal_of_normal (s := { s with len := 0 }) hnormal] at hback

/-- The trigger over a frame whose checksum matches completes the pass (R150). -/
theorem delivers_complete {a0 a1 r h l : Byte} {data : List Byte} (hlen : s.len = data.length + 5)
    (hread : s.buf.readRange 0 s.len = some ([a0, a1, r] ++ data ++ [h, l]))
    (hcrc : crcCompute ([a0, a1, r] ++ data) = h ++ l) :
    Delivers [Config.marker, Config.codeComplete] s (completed (a0 ++ a1) r data.length s) :=
  delivers_control hact hnormal fun rest =>
    exec_eor_frame (s := beginStep rest (setMode .afterMarker s)) hact hlen hread hcrc

/-- A stuffed byte is one append (R146, R148). -/
theorem delivers_stuff (b : Byte) : Delivers (stuff b) s (bufAppend b s) := by
  by_cases hb : b = Config.marker
  · have hback : Delivers [Config.marker, Config.codeEscape] s (setMode .normal (bufAppend Config.marker s)) :=
      delivers_control hact hnormal fun rest => exec_esc (s := beginStep rest (setMode .afterMarker s)) hact
    rwa [setMode_normal_of_normal (s := bufAppend Config.marker s) hnormal, ← stuff_marker, ← hb] at hback
  · intro rest
    rw [stuff_other hb]
    calc runSteps 1 (beginStep (byteStep b :: rest) s)
      _ = step (beginStep (byteStep b :: rest) s) := runSteps_one _
      _ = exec (.data b) (beginStep rest s) := by
        rw [step_byteStep hact, hnormal, decodeSymbol_normal_of_ne hb]
      _ = .next (beginStep rest (bufAppend b s)) := exec_data (s := beginStep rest s) hact b

end

theorem delivers_stuffAll {s : State} (hact : s.decActive = true) (hnormal : s.mode = .normal) (bytes : List Byte) :
    Delivers (stuffAll bytes) s (appendAll bytes s) := by
  induction bytes generalizing s with
  | nil => exact fun _ => rfl
  | cons b bytes ih =>
    rw [stuffAll_cons]
    exact (delivers_stuff hact hnormal b).append (ih hact hnormal)

/-- Between the start and the end sequence stands data, and each of them brings one byte 0x00 (41_frame_encoder.md
R121, R130). -/
theorem delivers_framed {s : State} (hact : s.decActive = true) (hnormal : s.mode = .normal) (bytes : List Byte) :
    Delivers (startSequence ++ stuffAll bytes ++ endSequence) s (appendAll ([0x00] ++ bytes ++ [0x00]) s) := by
  have active (bs : List Byte) : (appendAll bs s).decActive = true := (appendAll_decActive bs s).trans hact
  have normal (bs : List Byte) : (appendAll bs s).mode = .normal := (appendAll_mode bs s).trans hnormal
  have hstart : Delivers startSequence s (appendAll [0x00] s) :=
    (delivers_stuffAll hact hnormal [0x00]).append
      (delivers_ignored (active _) (normal _) (cc := Config.codeStart) (by decide) (by decide) (by decide) (by decide))
  have hend : Delivers endSequence (appendAll ([0x00] ++ bytes) s) (appendAll ([0x00] ++ bytes ++ [0x00]) s) := by
    rw [appendAll_append _ [0x00]]
    exact (delivers_ignored (active _) (normal _) (cc := Config.codeEnd) (by decide) (by decide) (by decide)
      (by decide)).append (delivers_stuffAll (active _) (normal _) [0x00])
  have hdata : Delivers (stuffAll bytes) (appendAll [0x00] s) (appendAll ([0x00] ++ bytes) s) := by
    rw [appendAll_append]
    exact delivers_stuffAll (active _) (normal _) bytes
  exact (hstart.append hdata).append hend

/-- A restart, a frame that fits and the trigger: the pass ends with the frame latched. -/
theorem delivers_response {s : State} {a0 a1 r h l : Byte} {data : List Byte} (hact : s.decActive = true)
    (hnormal : s.mode = .normal) (hfit : data.length + 5 ≤ s.params.cap)
    (hcrc : crcCompute ([a0, a1, r] ++ data) = h ++ l) :
    ∃ u, Delivers ([Config.marker, Config.codeRestart] ++ stuffAll ([a0, a1, r] ++ data ++ [h, l]) ++
        [Config.marker, Config.codeComplete]) s (completed (a0 ++ a1) r data.length u) ∧
      ∀ i, i < data.length → rspData (completed (a0 ++ a1) r data.length u) i = data[i]? := by
  have hsize : ([a0, a1, r] ++ data ++ [h, l]).length = data.length + 5 := by simp
  obtain ⟨hlen, hread⟩ := appendAll_room (s := { s with len := 0 }) (front := []) ([a0, a1, r] ++ data ++ [h, l]) rfl
    (by rw [hsize, Nat.zero_add]; exact hfit)
  rw [hsize, Nat.zero_add] at hlen
  rw [List.nil_append] at hread
  have hdata := delivers_stuffAll (s := { s with len := 0 }) hact hnormal ([a0, a1, r] ++ data ++ [h, l])
  refine ⟨_, ((delivers_restart hact hnormal).append hdata).append (delivers_complete ?_ ?_ hlen hread hcrc),
    fun _ => rspData_completed hlen hread _ _⟩
  · exact (appendAll_decActive _ _).trans hact
  · exact (appendAll_mode _ _).trans hnormal

/-- Settles O31: the stream is a restart, a frame that fits, and the trigger. -/
theorem responseStreamRoundTrips : Obligations.ResponseStreamRoundTrips := by
  intro s addr res data hact hnormal hfit hin
  obtain ⟨u, hrun, hdata⟩ := delivers_response (a0 := hi addr) (a1 := lo addr) (r := res) hact hnormal hfit
    (hi_append_lo (crcCompute (payload addr res data))).symm
  exact ⟨_, hrun.run (by simp) hin, rfl, rfl, rfl, rfl, hi_append_lo addr, rfl, rfl, hdata⟩

/-- Settles O32: the frame is data to the decoder, and appends end no pass. -/
theorem ownRequestStaysPending : Obligations.OwnRequestStaysPending := by
  intro s addr cmd data hact hnormal hin
  have hpos := encodeFrame_length_pos addr cmd data
  have hsize : (payload addr cmd data ++ halfBytes (crcCompute (payload addr cmd data))).length = data.length + 5 := by
    rw [List.length_append, payload_length, halfBytes_length]
  rw [List.append_assoc [0x00]]
  rw [encodeFrame_eq] at hin hpos ⊢
  generalize payload addr cmd data ++ halfBytes (crcCompute (payload addr cmd data)) = bytes at *
  refine ⟨_, (delivers_framed hact hnormal bytes).run hpos hin, rfl, ?_, ?_, ?_, fun hempty hfit => ?_⟩
  · exact (appendAll_decActive _ s).trans hact
  · exact (appendAll_mode _ s).trans hnormal
  · exact appendAll_sameLatch _ s
  · have hframed : ([0x00] ++ bytes ++ [0x00]).length = data.length + 7 := by simp [hsize]
    obtain ⟨hlen, hread⟩ := appendAll_room (s := s) (front := []) ([0x00] ++ bytes ++ [0x00]) (by rw [hempty]; rfl)
      (by rwa [hempty, hframed, Nat.zero_add])
    rw [hempty, hframed, Nat.zero_add] at hlen
    exact ⟨hlen, hread⟩

end Sys2Proof.Machine
end

section
/-! The operations of the validator (43_validator.md R180 to R187): their codes, their refusal without a finished pass, the
case in which each verdict is given, and the outputs that go with it. -/

namespace Sys2Proof.Machine

theorem decodeOp_valGuid {p : Ports} (h : p.op = 0x9) : decodeOp p = .valGuid := by simp [decodeOp, h]

theorem decodeOp_valInfo {p : Ports} (h : p.op = 0xA) : decodeOp p = .valInfo := by simp [decodeOp, h]

theorem decodeOp_valAck {p : Ports} (h : p.op = 0xB) : decodeOp p = .valAck := by simp [decodeOp, h]

/-- Settles O55. -/
theorem verdictCodes : Obligations.VerdictCodes := ⟨rfl, rfl, rfl, rfl, rfl⟩

section
variable {s : State} (hinvalid : s.rspValid = false)
include hinvalid

theorem exec_valGuid_noResponse : exec .valGuid s = .refused .noResponse := if_neg (by simp [hinvalid])

theorem exec_valInfo_noResponse : exec .valInfo s = .refused .noResponse := if_neg (by simp [hinvalid])

theorem exec_valAck_noResponse : exec .valAck s = .refused .noResponse := if_neg (by simp [hinvalid])

end

theorem exec_nobody_changes_out {i : Instr} {s t : State} (hi : owner i = .nobody) (h : exec i s = .next t) :
    t = { s with out := t.out } := by
  obtain ⟨o, rfl⟩ := exec_next_of_nobody hi h
  rfl

/-- Settles O39: the validator owns no state (10_state.md R36). -/
theorem validatorOnlyJudges : Obligations.ValidatorOnlyJudges := by
  refine fun s => ⟨fun hinvalid => ?_, fun t h => ?_⟩
  · exact ⟨exec_valGuid_noResponse hinvalid, exec_valInfo_noResponse hinvalid, exec_valAck_noResponse hinvalid⟩
  · obtain h | h | h := h
    · exact exec_nobody_changes_out rfl h
    · exact exec_nobody_changes_out rfl h
    · exact exec_nobody_changes_out rfl h

section
variable {s : State}

theorem ackVerdict_checksumError (hst : s.rspState = .checksumError) : ackVerdict s = .dropChecksum := if_pos hst

theorem ackVerdict_otherState (hsucc : s.rspState ≠ .success) (hcrc : s.rspState ≠ .checksumError) :
    ackVerdict s = .dropState := (if_neg hcrc).trans (if_pos hsucc)

/-- On success the verdict is that of the result byte alone (R186). -/
theorem ackVerdict_success (hsucc : s.rspState = .success) :
    ackVerdict s = if s.rspResult = 0 then .accept else .dropResult := by
  simp only [ackVerdict, hsucc, ne_eq, reduceCtorEq, not_true_eq_false, if_false, ite_not]

/-- `VAL.INFO` asks what `VAL.ACK` asks first (R183, R186). -/
theorem infoVerdict_of_ackVerdict_ne {v : Verdict} (h : ackVerdict s = v) (hdrop : v ≠ .accept) :
    infoVerdict s = v := by
  subst h
  unfold ackVerdict at hdrop ⊢
  unfold infoVerdict
  split_ifs at hdrop ⊢
  · rfl
  · rfl
  · rfl
  · exact absurd rfl hdrop
  · rfl

/-- Where `VAL.ACK` accepts, `VAL.INFO` has the length left to test. -/
theorem infoVerdict_of_ackVerdict_accept (h : ackVerdict s = .accept) :
    infoVerdict s = if s.rspDlen < 54 then .dropLength else .accept := by
  unfold ackVerdict at h
  split_ifs at h with hcrc hst hres
  exact (if_neg hcrc).trans ((if_neg hst).trans (if_neg hres))

theorem guidVerdict_checksumError (hst : s.rspState = .checksumError) : guidVerdict s = .dropChecksum := by
  simp [guidVerdict, hst]

theorem guidVerdict_otherState (hsucc : s.rspState ≠ .success) (hcrc : s.rspState ≠ .checksumError) :
    guidVerdict s = .dropState := (if_neg hsucc).trans (if_neg hcrc)

theorem guidVerdict_success (hsucc : s.rspState = .success) :
    guidVerdict s = if s.rspDlen = 16 then .accept else .dropLength := if_pos hsucc

/-- The suspicion of R182 is one response state. -/
theorem collisionSuspected_checksumError (hst : s.rspState = .checksumError) : collisionSuspected s = true :=
  beq_iff_eq.mpr hst

theorem collisionSuspected_otherState (hst : s.rspState ≠ .checksumError) : collisionSuspected s = false :=
  beq_eq_false_iff_ne.mpr hst

end

section
variable {s : State} {v : Verdict} (hvalid : s.rspValid = true)
include hvalid

theorem exec_valAck (h : ackVerdict s = v) :
    exec .valAck s = .next { s with out := { verdict := some v, collision := some false } } := by
  subst h
  exact if_pos hvalid

theorem exec_valInfo_drop (h : infoVerdict s = v) (hdrop : v ≠ .accept) :
    exec .valInfo s = .next { s with out := { verdict := some v, collision := some false } } := by
  refine (if_pos hvalid).trans ?_
  rw [h]
  cases v with
  | accept => exact absurd rfl hdrop
  | _ => rfl

theorem exec_valGuid_drop {collision : Bool} (h : guidVerdict s = v) (hdrop : v ≠ .accept)
    (hcollision : collisionSuspected s = collision) :
    exec .valGuid s = .next { s with out := { verdict := some v, collision := some collision } } := by
  refine (if_pos hvalid).trans ?_
  rw [h, hcollision]
  cases v with
  | accept => exact absurd rfl hdrop
  | _ => rfl

theorem exec_valGuid_accept {g : List Byte} (h : guidVerdict s = .accept) (hg : rspSlice s 0 16 = some g) :
    exec .valGuid s = .next { s with out :=
      { verdict := some .accept, collision := some false, guid := some (bigEndian 128 g) } } := by
  obtain ⟨hsucc, -⟩ := guidVerdict_accept h
  have hcollision : collisionSuspected s = false := collisionSuspected_otherState (by simp [hsucc])
  refine (if_pos hvalid).trans ?_
  rw [h, hg, hcollision]
  rfl

theorem exec_valInfo_accept {g name date : List Byte} (h : infoVerdict s = .accept)
    (hg : rspSlice s 0 16 = some g) (hname : rspSlice s 16 32 = some name) (hdate : rspSlice s 48 6 = some date) :
    exec .valInfo s = .next { s with out :=
      { verdict := some .accept, collision := some false, guid := some (bigEndian 128 g), nameRaw := some name,
        dateRaw := some date } } := by
  refine (if_pos hvalid).trans ?_
  rw [h, hg, hname, hdate]
  rfl

end

/-- Settles O38. -/
theorem ackVerdictResult : Obligations.AckVerdictResult := by
  refine ⟨fun _ => decodeOp_valAck, fun _ => exec_valAck_noResponse, fun s hvalid => ⟨?_, ?_, ?_, ?_⟩⟩
  · exact fun hsucc hres => exec_valAck hvalid ((ackVerdict_success hsucc).trans (if_pos hres))
  · exact fun hsucc hres => exec_valAck hvalid ((ackVerdict_success hsucc).trans (if_neg hres))
  · exact fun hcrc => exec_valAck hvalid (ackVerdict_checksumError hcrc)
  · exact fun hsucc hcrc => exec_valAck hvalid (ackVerdict_otherState hsucc hcrc)

end Sys2Proof.Machine
end

section
/-! The outputs of an accepting verdict: the bytes of the big-endian GUID (30_encoding.md R78), and the fields of Data by
their offsets (20_memory.md R55). -/

namespace Sys2Proof.Machine

theorem bigEndian_concat (w : Nat) (bytes : List Byte) (b : Byte) :
    bigEndian w (bytes ++ [b]) = (bigEndian w bytes <<< 8) ||| b.setWidth w := by
  simp [bigEndian]

theorem extractLsb'_zero_shiftLeft_or {w : Nat} (v : BitVec w) (b : Byte) (hw : 8 ≤ w) :
    ((v <<< 8) ||| b.setWidth w).extractLsb' 0 8 = b := by
  ext i hi
  simp only [BitVec.getElem_extractLsb', BitVec.getLsbD_or, BitVec.getLsbD_shiftLeft, BitVec.getLsbD_setWidth]
  simp [hi, show i < w by omega]

theorem extractLsb'_add_shiftLeft_or {w j : Nat} (v : BitVec w) (b : Byte) (hw : j + 16 ≤ w) :
    ((v <<< 8) ||| b.setWidth w).extractLsb' (j + 8) 8 = v.extractLsb' j 8 := by
  ext i hi
  simp only [BitVec.getElem_extractLsb', BitVec.getLsbD_or, BitVec.getLsbD_shiftLeft, BitVec.getLsbD_setWidth]
  simp [show j + 8 + i < w by omega, show j + 8 + i - 8 = j + i by omega, show 8 ≤ j + 8 + i by omega]

/-- The bytes of a big-endian value that fit its width, the last one lowest. -/
theorem bigEndian_extractLsb' {w j : Nat} {bytes : List Byte} {b : Byte} (hb : bytes.reverse[j]? = some b)
    (hw : 8 * j + 8 ≤ w) : (bigEndian w bytes).extractLsb' (8 * j) 8 = b := by
  induction bytes using List.reverseRecOn generalizing j with
  | nil => simp at hb
  | append_singleton bytes c ih =>
    rw [List.reverse_concat] at hb
    rw [bigEndian_concat]
    cases j with
    | zero =>
      cases hb
      exact extractLsb'_zero_shiftLeft_or _ _ (by omega)
    | succ j => exact (extractLsb'_add_shiftLeft_or _ c (by omega)).trans (ih hb (by omega))

/-- `Data[0]` is in bits 127:120 (30_encoding.md R78). -/
theorem bigEndian_guid_byte {g : List Byte} {k : Nat} {b : Byte} (hlen : g.length = 16) (hb : g[k]? = some b) :
    (bigEndian 128 g).extractLsb' (120 - 8 * k) 8 = b := by
  obtain ⟨hk, -⟩ := List.getElem?_eq_some_iff.mp hb
  have hrev : g.reverse[15 - k]? = some b := by
    rw [List.getElem?_reverse (by omega), hlen, show 16 - 1 - (15 - k) = k by omega, hb]
  rw [show 120 - 8 * k = 8 * (15 - k) by omega]
  exact bigEndian_extractLsb' hrev (by omega)

/-- A field of response data that BUF holds (10_state.md R28). -/
theorem rspSlice_of_read {s : State} {data : List Byte} {start n : Nat}
    (hread : ∀ k, k < data.length → s.buf.read (3 + k) = data[k]?) (hn : start + n ≤ data.length) :
    rspSlice s start n = some (slice data start n) := by
  refine Memory.readRange_eq_some.mpr ⟨?_, fun k hk => ?_⟩
  · simp only [slice, List.length_take, List.length_drop]
    omega
  · rw [Nat.add_assoc, hread (start + k) (by omega), slice, List.getElem?_take_of_lt hk, List.getElem?_drop]

/-- Settles O36. -/
theorem guidVerdictResult : Obligations.GuidVerdictResult := by
  refine ⟨fun _ => decodeOp_valGuid, fun _ => exec_valGuid_noResponse, fun s hvalid => ⟨?_, ?_, ?_, ?_⟩⟩
  · intro g hsucc hdlen hlen hread
    have hg : rspSlice s 0 16 = some g := by
      rw [rspSlice_of_read (data := g) (by rwa [hlen]) (by omega), slice, List.drop_zero, ← hlen, List.take_length]
    exact ⟨_, exec_valGuid_accept hvalid ((guidVerdict_success hsucc).trans (if_pos hdlen)) hg,
      fun _ _ => bigEndian_guid_byte hlen⟩
  · intro hsucc hdlen
    exact exec_valGuid_drop hvalid ((guidVerdict_success hsucc).trans (if_neg hdlen)) (by decide)
      (collisionSuspected_otherState (by simp [hsucc]))
  · intro hcrc
    exact exec_valGuid_drop hvalid (guidVerdict_checksumError hcrc) (by decide) (collisionSuspected_checksumError hcrc)
  · intro hsucc hcrc
    exact exec_valGuid_drop hvalid (guidVerdict_otherState hsucc hcrc) (by decide) (collisionSuspected_otherState hcrc)

/-- Settles O37: the three drops before the length test are those of `VAL.ACK`. -/
theorem infoVerdictResult : Obligations.InfoVerdictResult := by
  refine ⟨fun _ => decodeOp_valInfo, fun _ => exec_valInfo_noResponse, fun s hvalid => ⟨?_, ?_, ?_, ?_, ?_⟩⟩
  · intro g name date hsucc hres hdlen hlg hln hld hread
    have hack := (ackVerdict_success hsucc).trans (if_pos hres)
    have hacc := (infoVerdict_of_ackVerdict_accept hack).trans (if_neg (Nat.not_lt_of_le hdlen))
    have hslice {start n : Nat} (hn : start + n ≤ 54) :
        rspSlice s start n = some (slice (g ++ name ++ date) start n) :=
      rspSlice_of_read (by simpa [hlg, hln, hld] using hread) (by simpa [hlg, hln, hld] using hn)
    have hg : slice (g ++ name ++ date) 0 16 = g := by simp [slice, ← hlg]
    have hname : slice (g ++ name ++ date) 16 32 = name := by simp [slice, ← hlg, ← hln]
    have hdate : slice (g ++ name ++ date) 48 6 = date := by
      rw [slice, List.drop_left' (by simp [hlg, hln]), ← hld, List.take_length]
    refine ⟨_, exec_valInfo_accept hvalid hacc ?_ ?_ ?_, fun _ _ => bigEndian_guid_byte hlg⟩
    · rw [hslice (by omega), hg]
    · rw [hslice (by omega), hname]
    · rw [hslice (by omega), hdate]
  · intro hsucc hres hdlen
    have hack := (ackVerdict_success hsucc).trans (if_pos hres)
    exact exec_valInfo_drop hvalid ((infoVerdict_of_ackVerdict_accept hack).trans (if_pos hdlen)) (by decide)
  · intro hsucc hres
    have hack := (ackVerdict_success hsucc).trans (if_neg hres)
    exact exec_valInfo_drop hvalid (infoVerdict_of_ackVerdict_ne hack (by decide)) (by decide)
  · intro hcrc
    exact exec_valInfo_drop hvalid (infoVerdict_of_ackVerdict_ne (ackVerdict_checksumError hcrc) (by decide)) (by decide)
  · intro hsucc hcrc
    exact exec_valInfo_drop hvalid (infoVerdict_of_ackVerdict_ne (ackVerdict_otherState hsucc hcrc) (by decide))
      (by decide)

end Sys2Proof.Machine
end

section
/-! The decoding of a name (43_validator.md R184): the loop is the filter followed by the collapse, and the collapse is the
library's `List.destutter` for "not both spaces". -/

namespace Sys2Proof.Machine

/-- Two neighbours in a collapsed name. -/
abbrev NotBothSpaces (a b : Byte) : Prop := ¬ (a = 0x20 ∧ b = 0x20)

theorem collapseSpaces_cons_eq_destutter' (a : Byte) (bytes : List Byte) :
    collapseSpaces (a :: bytes) = bytes.destutter' NotBothSpaces a := by
  induction bytes generalizing a with
  | nil => rfl
  | cons b bytes ih =>
    rw [collapseSpaces, List.destutter'_cons, ih, ite_not]
    split_ifs with h
    · rw [h.1, h.2]
    · rfl

theorem collapseSpaces_eq_destutter (bytes : List Byte) : collapseSpaces bytes = bytes.destutter NotBothSpaces := by
  cases bytes with
  | nil => rfl
  | cons a bytes => exact collapseSpaces_cons_eq_destutter' a bytes

theorem collapseSpaces_sublist (bytes : List Byte) : (collapseSpaces bytes).Sublist bytes := by
  rw [collapseSpaces_eq_destutter]
  exact List.destutter_sublist _ bytes

theorem collapseSpaces_isChain (bytes : List Byte) : (collapseSpaces bytes).IsChain NotBothSpaces := by
  rw [collapseSpaces_eq_destutter]
  exact List.isChain_destutter _ bytes

theorem collapseSpaces_filter_ne_space (bytes : List Byte) :
    (collapseSpaces bytes).filter (· ≠ 0x20) = bytes.filter (· ≠ 0x20) := by
  induction bytes using collapseSpaces.induct with
  | case1 => rfl
  | case2 b => rfl
  | case3 a b rest h ih =>
    rw [collapseSpaces, if_pos h, ih, List.filter_cons_of_neg (a := a) (by simp [h.1])]
  | case4 a b rest h ih => rw [collapseSpaces, if_neg h, List.filter_cons, List.filter_cons, ih]

theorem collapseSpaces_cons_ne_nil (a : Byte) (bytes : List Byte) : collapseSpaces (a :: bytes) ≠ [] := by
  rw [collapseSpaces_cons_eq_destutter']
  exact List.destutter'_ne_nil _ _

/-- A byte read after the others is dropped exactly when it is a space after a space. -/
theorem collapseSpaces_concat (bytes : List Byte) (c : Byte) :
    collapseSpaces (bytes ++ [c]) =
      if c = 0x20 ∧ (collapseSpaces bytes).getLast? = some 0x20 then collapseSpaces bytes
      else collapseSpaces bytes ++ [c] := by
  induction bytes using collapseSpaces.induct with
  | case1 => simp [collapseSpaces]
  | case2 b =>
    simp only [collapseSpaces, List.cons_append, List.nil_append, List.getLast?_singleton, Option.some.injEq,
      and_comm (a := c = 0x20)]
    split_ifs with h
    · rw [h.1, h.2]
    · rfl
  | case3 a b rest h ih =>
    have hdrop (bs : List Byte) : collapseSpaces (a :: b :: bs) = collapseSpaces (b :: bs) := if_pos h
    rw [hdrop, ← ih]
    exact hdrop (rest ++ [c])
  | case4 a b rest h ih =>
    have hkeep (bs : List Byte) : collapseSpaces (a :: b :: bs) = a :: collapseSpaces (b :: bs) := if_neg h
    have hlast : (a :: collapseSpaces (b :: rest)).getLast? = (collapseSpaces (b :: rest)).getLast? :=
      List.getLast?_cons_of_ne_nil (collapseSpaces_cons_ne_nil b rest)
    rw [hkeep, hlast]
    refine (hkeep (rest ++ [c])).trans ((congrArg (a :: ·) ih).trans ?_)
    split_ifs
    · rfl
    · rfl

theorem decodeName_concat (bytes : List Byte) (b : Byte) :
    decodeName (bytes ++ [b]) = nameStep (decodeName bytes) b := by
  simp [decodeName]

theorem decodeName_eq_collapseSpaces (bytes : List Byte) :
    decodeName bytes = collapseSpaces (bytes.filter printable) := by
  induction bytes using List.reverseRecOn with
  | nil => rfl
  | append_singleton bytes b ih =>
    rw [decodeName_concat, ih, List.filter_append, nameStep]
    by_cases hb : printable b = true
    · simp [hb, collapseSpaces_concat]
    · simp [hb]

/-- Settles O40. -/
theorem decodedNameIsCollapsed : Obligations.DecodedNameIsCollapsed := by
  intro bytes
  refine ⟨fun b hb => ?_, fun i hi hnext => ?_, ?_, ?_, decodeName_eq_collapseSpaces bytes, ?_⟩
  · rw [decodeName_eq_collapseSpaces] at hb
    have := List.of_mem_filter ((collapseSpaces_sublist _).subset hb)
    simpa [printable] using this
  · rw [decodeName_eq_collapseSpaces] at hi hnext
    obtain ⟨_, ha⟩ := List.getElem?_eq_some_iff.mp hi
    obtain ⟨hlt, hb⟩ := List.getElem?_eq_some_iff.mp hnext
    exact List.isChain_iff_getElem.mp (collapseSpaces_isChain _) i hlt ⟨ha, hb⟩
  · rw [decodeName_eq_collapseSpaces, collapseSpaces_filter_ne_space, List.filter_filter]
    refine List.filter_congr fun b _ => ?_
    rw [Bool.eq_iff_iff]
    have hspace : b ≠ 0x20 ↔ b.toNat ≠ 0x20 := BitVec.toNat_inj.not.symm
    simp only [printable, Bool.and_eq_true, decide_eq_true_eq, hspace]
    omega
  · rw [decodeName_eq_collapseSpaces]
    exact (collapseSpaces_sublist _).trans List.filter_sublist
  · rw [decodeName_concat]
    simp [nameStep, printable]

end Sys2Proof.Machine
end

section
/-! The host's side of bus management (43_validator.md R188 to R191, log 16, log 17): the set that discovery collects, and
the requests with the three reserved commands (00_scope.md R7). -/

namespace Sys2Proof.Machine

theorem collectGuid_accept {o : Outputs} {g : BitVec 128} (hv : o.verdict = some .accept) (hg : o.guid = some g)
    (found : Finset (BitVec 128)) : collectGuid o found = insert g found := by
  simp [collectGuid, hv, hg]

theorem collectGuid_drop {o : Outputs} (hv : o.verdict ≠ some .accept) (found : Finset (BitVec 128)) :
    collectGuid o found = found := by
  unfold collectGuid
  split
  case h_1 g hacc _ => exact absurd hacc hv
  case h_2 => rfl

theorem mem_collectGuid {o : Outputs} {found : Finset (BitVec 128)} {g : BitVec 128} :
    g ∈ collectGuid o found ↔ (o.verdict = some .accept ∧ o.guid = some g) ∨ g ∈ found := by
  by_cases hv : o.verdict = some .accept
  · cases hg : o.guid with
    | none => simp [collectGuid, hv, hg]
    | some g' => simp [collectGuid_accept hv hg, hv, eq_comm]
  · simp [collectGuid_drop hv, hv]

theorem mem_foldl_collectGuid {os : List Outputs} {found : Finset (BitVec 128)} {g : BitVec 128} :
    g ∈ os.foldl (fun found o => collectGuid o found) found ↔
      (∃ o ∈ os, o.verdict = some .accept ∧ o.guid = some g) ∨ g ∈ found := by
  induction os generalizing found with
  | nil => simp
  | cons o os ih =>
    simp only [List.foldl_cons, ih, mem_collectGuid, List.mem_cons, exists_eq_or_imp]
    rw [← or_assoc, or_comm (b := _ ∧ _)]

theorem mem_discovered {os : List Outputs} {g : BitVec 128} :
    g ∈ discovered os ↔ ∃ o ∈ os, o.verdict = some .accept ∧ o.guid = some g := by
  rw [discovered, mem_foldl_collectGuid, or_iff_left (Finset.notMem_empty g)]

/-- Settles O42: the order of arrival is no part of `mem_discovered`. -/
theorem discoveryCollectsASet : Obligations.DiscoveryCollectsASet := by
  refine ⟨fun o found => ⟨fun g hv hg => ?_, fun hv => collectGuid_drop hv found⟩, fun os g => mem_discovered,
    fun os os' hperm => ?_⟩
  · rw [collectGuid_accept hv hg]
    exact ⟨fun _ => Finset.mem_insert, Finset.insert_eq_of_mem, Finset.card_insert_of_notMem⟩
  · ext g
    simp only [mem_discovered, hperm.mem_iff]

/-- What R7 asks of the three reserved commands (30_encoding.md R79). -/
def Admissible (c : Byte × Byte × Byte) : Prop :=
  250 ≤ c.1.toNat ∧ 250 ≤ c.2.1.toNat ∧ 250 ≤ c.2.2.toNat ∧ c.1 ≠ c.2.1 ∧ c.1 ≠ c.2.2 ∧ c.2.1 ≠ c.2.2

theorem admissible_of_mem_commandTriples {c : Byte × Byte × Byte} (h : c ∈ Config.commandTriples) : Admissible c := by
  have pool_ge {b : Byte} (hb : b ∈ ([250, 251, 252, 253, 254, 255] : List Byte)) : 250 ≤ b.toNat := by
    revert b
    decide
  simp only [Config.commandTriples, List.mem_flatMap, List.mem_map, List.mem_filter, Bool.and_eq_true,
    decide_eq_true_eq] at h
  obtain ⟨a, ha, b, ⟨hb, hba⟩, c, ⟨hc, hca, hcb⟩, rfl⟩ := h
  exact ⟨pool_ge ha, pool_ge hb, pool_ge hc, Ne.symm hba, Ne.symm hca, Ne.symm hcb⟩

/-- Whichever triple is in use, it is one of the 120. -/
theorem commands_admissible : Admissible Config.commands := by
  have hlen : Config.commandTriples.length = 120 := rfl
  have hchoice : Config.commandChoice % 120 < Config.commandTriples.length := by
    rw [hlen]
    exact Nat.mod_lt _ (by decide)
  apply admissible_of_mem_commandTriples
  rw [Config.commands, List.getD_eq_getElem _ _ hchoice]
  exact List.getElem_mem hchoice

/-- Settles O56. -/
theorem managementRequests : Obligations.ManagementRequests :=
  ⟨fun _ => rfl, fun _ => rfl, fun _ _ => rfl, commands_admissible⟩

end Sys2Proof.Machine
end

section
/-! What an instruction may write into RSP_STATE (60_exceptions.md R201, R206): only `finish` writes it, and the decoder
ends a pass with four outcomes only. -/

namespace Sys2Proof.Machine

/-- From `s` to `t`, RSP_STATE is kept or takes one of the four outcomes of 60_exceptions.md R201. -/
def WritesFourOutcomes (s t : State) : Prop :=
  t.rspState = s.rspState ∨ t.rspState = .success ∨ t.rspState = .timeout ∨ t.rspState = .checksumError ∨
  t.rspState = .transportError

theorem completeFrame_writesFourOutcomes {s t : State} (h : completeFrame s = .next t) : WritesFourOutcomes s t := by
  obtain ⟨-, he⟩ | ⟨-, -, he⟩ | ⟨_, -, -, -, he⟩ | ⟨_, -, -, -, he⟩ := completeFrame_cases s <;>
    cases he.symm.trans h
  · exact .inl rfl
  · exact .inr (.inl rfl)
  · exact .inr (.inr (.inr (.inl rfl)))

theorem SymbolBody.writesFourOutcomes {k : State → Answer} (hk : SymbolBody k) {s t : State}
    (h : inPass k s = .next t) : WritesFourOutcomes s t := by
  obtain ⟨-, h⟩ := inPass_next h
  cases hk with
  | complete => exact completeFrame_writesFourOutcomes h
  | _ => cases h; exact .inl rfl

theorem execDecStep_writesFourOutcomes {elapsed : Time} {rd : ReadOutcome} {b : Byte} {s t : State}
    (h : execDecStep elapsed rd b s = .next t) : WritesFourOutcomes s t := by
  obtain ⟨-, ⟨-, -, rfl⟩ | ⟨-, -, rfl⟩ | ⟨-, -, hp⟩ | ⟨-, -, rfl⟩⟩ := execDecStep_next h
  · exact .inr (.inr (.inl rfl))
  · exact .inl rfl
  · obtain ⟨k, hk, he⟩ := process_eq_inPass s.mode b
    exact hk.writesFourOutcomes ((he s rfl).symm.trans hp)
  · exact .inr (.inr (.inr (.inr rfl)))

/-- A new pass leaves RSP_STATE; it is RSP_VALID that it takes back (42_frame_decoder.md R141). -/
theorem execDecStart_rspState {timeout : Time} {s t : State} (h : execDecStart timeout s = .next t) :
    t.rspState = s.rspState := by
  unfold execDecStart at h
  split_ifs at h
  cases h
  rfl

/-- An instruction of another owner than the decoder keeps RSP_STATE (10_state.md R36). -/
theorem exec_keeps_rspState {i : Instr} {s t : State} (h : exec i s = .next t) (hdec : owner i ≠ .decoder)
    (hall : owner i ≠ .everybody) : t.rspState = s.rspState := by
  obtain ⟨-, -, hdecoder, -⟩ := stateHasOneOwner i s t h
  obtain ⟨-, -, hstate, -⟩ := hdecoder hdec hall
  exact hstate

/-- Settles O34: the decoder's instructions one by one, the others by ownership. -/
theorem onlyFourOutcomesAreWritten : Obligations.OnlyFourOutcomesAreWritten := by
  intro i s t h hreset
  change WritesFourOutcomes s t
  cases i with
  | esc => exact SymbolBody.appendMarker.writesFourOutcomes h
  | mm => exact SymbolBody.appendMarker.writesFourOutcomes h
  | sof => exact (SymbolBody.setMode .normal).writesFourOutcomes h
  | eof => exact (SymbolBody.setMode .normal).writesFourOutcomes h
  | ign cc => exact (SymbolBody.setMode .normal).writesFourOutcomes h
  | mrk => exact (SymbolBody.setMode .afterMarker).writesFourOutcomes h
  | rst => exact SymbolBody.restart.writesFourOutcomes h
  | eor => exact SymbolBody.complete.writesFourOutcomes h
  | data b => exact (SymbolBody.append b).writesFourOutcomes h
  | decStart timeout => exact .inl (execDecStart_rspState h)
  | decStep elapsed rd b => exact execDecStep_writesFourOutcomes h
  | reset => exact absurd rfl hreset
  | _ => exact .inl (exec_keeps_rspState h nofun nofun)

end Sys2Proof.Machine
end

section
/-! The host's retry loop (60_exceptions.md R216, log 16): one equation for each way an attempt can end it or go on, and
from them both halves of the bound. -/

namespace Sys2Proof.Machine

theorem retryLoop_success (retries : Nat) (rest : List ResponseState) :
    retryLoop retries (.success :: rest) = some (1, .success) := by
  unfold retryLoop
  exact if_pos rfl

/-- With no retry left the one attempt decides, whatever it gave. -/
theorem retryLoop_zero (o : ResponseState) (rest : List ResponseState) : retryLoop 0 (o :: rest) = some (1, o) := by
  simp [retryLoop]

theorem retryLoop_succ_failure {o : ResponseState} (ho : o ≠ .success) (k : Nat) (rest : List ResponseState) :
    retryLoop (k + 1) (o :: rest) = (retryLoop k rest).map fun r => (r.1 + 1, r.2) := by
  simp [retryLoop, ho]

theorem retryLoop_all_fail {retries : Nat} {outcomes : List ResponseState} (hlen : retries + 1 ≤ outcomes.length)
    (hfail : ∀ o ∈ outcomes.take (retries + 1), o ≠ .success) :
    retryLoop retries outcomes = outcomes[retries]?.map fun o => (retries + 1, o) := by
  induction retries generalizing outcomes with
  | zero =>
    obtain ⟨o, rest, rfl⟩ := List.exists_cons_of_length_pos hlen
    exact retryLoop_zero o rest
  | succ k ih =>
    obtain ⟨o, rest, rfl⟩ := List.exists_cons_of_length_pos (Nat.zero_lt_of_lt hlen)
    rw [List.take_succ_cons, List.forall_mem_cons] at hfail
    obtain ⟨ho, hrest⟩ := hfail
    rw [retryLoop_succ_failure ho, ih (Nat.le_of_succ_le_succ hlen) hrest, List.getElem?_cons_succ, Option.map_map]
    rfl

theorem retryLoop_first_success {retries : Nat} {before : List ResponseState} (after : List ResponseState)
    (hlen : before.length ≤ retries) (hfail : ∀ o ∈ before, o ≠ .success) :
    retryLoop retries (before ++ .success :: after) = some (before.length + 1, .success) := by
  induction before generalizing retries with
  | nil => exact retryLoop_success retries after
  | cons o before ih =>
    rw [List.forall_mem_cons] at hfail
    obtain ⟨ho, hbefore⟩ := hfail
    obtain ⟨k, rfl⟩ := Nat.exists_eq_add_one.mpr (Nat.zero_lt_of_lt hlen)
    rw [List.cons_append, retryLoop_succ_failure ho, ih (Nat.le_of_succ_le_succ hlen) hbefore]
    rfl

/-- Settles O41. -/
theorem retryBound : Obligations.RetryBound := by
  intro retries outcomes
  refine ⟨retryLoop_all_fail, fun before after hlen hfail hout => ?_⟩
  rw [hout]
  exact retryLoop_first_success after hlen hfail

end Sys2Proof.Machine
end

section
/-! The result of `RESET` (70_reset_and_hazards.md R230): never refused, never a fault, in whatever state it is presented. -/

namespace Sys2Proof.Machine

theorem exec_reset (s : State) : exec .reset s = .next (resetBlock s) := rfl

/-- Settles O45: the state after `RESET` is `resetBlock s`, read field by field. -/
theorem resetResult : Obligations.ResetResult := fun s =>
  ⟨resetBlock s, exec_reset s, resetBlock_mode s, resetBlock_len s, resetBlock_acc s, resetBlock_encBusy s,
    resetBlock_encPos s, resetBlock_decActive s, resetBlock_ovf s, resetBlock_rspValid s, resetBlock_params s,
    resetBlock_input s, resetBlock_out s⟩

end Sys2Proof.Machine
end
